-- ==== Sys2Proof/Word.lean ====
section
/-! DEFINITION. The widths of the block's data (spec/00_scope.md R14, R15, R19, R22). -/

namespace Sys2Proof

/-- A nibble, 4 bits unsigned (00_scope.md R22). -/
abbrev Nibble := BitVec 4

/-- A byte of the serial stream (20_memory.md R60, 30_encoding.md R82). -/
abbrev Byte := BitVec 8

/-- A command word `CMD_WORD[9:0]` (30_encoding.md R80). -/
abbrev CmdWord := BitVec 10

/-- A time or a duration: a natural number of `TIME_UNIT`s, unbounded in the model (00_scope.md R19). -/
abbrev Time := Nat

/-- The case of the letters of a hex digit: the operand `case` of ENCODE (30_encoding.md R93). -/
inductive LetterCase where
  | upper
  | lower
  deriving DecidableEq, Repr

end Sys2Proof
end

