-- ==== Sys2Proof/Config.lean ====
section
/-! DEFINITION. The protocol constants (spec/00_scope.md R11, R12), the OPEN parameters of a run, and
the free values: what the outside world answers, which the spec leaves open (spec/93_implementation_defined.md). -/

namespace Sys2Proof

/-- `FRAG_LEN`, the fragment length that decodes (00_scope.md R11, R12). -/
def Config.fragLen : Nat := 12

/-- `START_MARKER` (00_scope.md R11, 30_encoding.md R83). -/
def Config.startMarker : Byte := 0x02

/-- `END_MARKER` (00_scope.md R11, 30_encoding.md R83). -/
def Config.endMarker : Byte := 0x03

/-- What a caller's HOOK may attempt (44_poll_loop.md R183). Reading the status ports, requesting a stop and
issuing SESSION_RESET are the three permitted actions; any other word issued is outside the spec. -/
inductive HookAction where
  | readStatus
  | requestStop
  | issue (w : CmdWord)
  deriving DecidableEq, Repr

/-- The parameters of a run that are OPEN and that a step can depend on: arguments of the step relation `stepWith`,
fixed for the whole run, and no state (00_scope.md R11, R13). The others are `READ_TIMEOUT`, an operand of READ_ONE, the three
constants above, and the timing figures of log 23. -/
structure Parameters where
  /-- `HB_INTERVAL`, 0 for a disabled heartbeat: what the host holds on the static input `CFG_HB_INTERVAL`
  (10_state.md R44). -/
  hbInterval : Time
  /-- `TS_W`, the width of a hardware timestamp (93 U7). -/
  tsW : Nat
  deriving DecidableEq, Repr

/-- OPEN PARAMETER: the `HB_INTERVAL` of the interface's run, any value, 0 for a disabled heartbeat. It is one value
for the whole run and no state (00_scope.md R11, R13, 70_reset_and_hazards.md R238, 93 U5; log 4). -/
opaque Config.hbInterval : Time

/-- FREE VALUE: the result of the n-th free `POLL()`, any byte or none (44_poll_loop.md R180, 93 U10; log 10). -/
opaque Config.freePoll : Nat → Option Byte

/-- FREE VALUE: how far the clock moved before the n-th free `clock()` reading. Readings never decrease, and
nothing else is known of them (44_poll_loop.md R180, 93 U16; log 11). -/
opaque Config.freeAdvance : Nat → Time

/-- FREE VALUE: what the HOOK does at its n-th free run (44_poll_loop.md R183; log 12). -/
opaque Config.freeHook : Nat → List HookAction

/-- FREE VALUE: whether someone outside requested a stop since the previous check (44_poll_loop.md R193, R194; log 13). -/
opaque Config.freeStop : Nat → Bool

end Sys2Proof
end

