-- ==== Sys2Proof/Syntax.lean ====
section
/-! DEFINITION. The operations of the command port, one constructor per mnemonic of spec/opcode_table.json
(30_encoding.md R81, R82, R89). The time operand `CMD_NOW` is a port of its own, not part of the word. -/

namespace Sys2Proof

/-- A decoded command. The table's rows of one mnemonic differ only in the operand held here (log 19). -/
inductive Instr where
  /-- FEED_START, byte 0x02 (41_framer.md R103). -/
  | feedStart
  /-- FEED_END, byte 0x03 (41_framer.md R104). -/
  | feedEnd
  /-- FEED_HEX, the nibble a hex-digit byte carries and the case it was written in (41_framer.md R108). A
  decimal digit has no case and is held as `upper`. -/
  | feedHex (n : Nibble) (c : LetterCase)
  /-- FEED_GARBAGE, the offending byte (41_framer.md R112). -/
  | feedGarbage (b : Byte)
  /-- TICK; the byte bits are ignored and kept only so that no bit of the word is lost (43_session.md R160, 30 R87). -/
  | tick (ignored : Byte)
  /-- SESSION_RESET; byte bits ignored (43_session.md R170). -/
  | sessionReset (ignored : Byte)
  /-- RESERVED; byte bits ignored (60_exceptions.md R201). -/
  | reserved (ignored : Byte)
  deriving DecidableEq, Repr

end Sys2Proof
end

