-- ==== Sys2Proof/WellFormed.lean ====
section
/-! DEFINITION. Which terms of `Instr` are instructions of the hardware. Written from the table of classes of
30_encoding.md R82, independently of the decoder. -/

namespace Sys2Proof

/-- The GARBAGE row of 30_encoding.md R82, range by range. -/
def isGarbageByte (b : Byte) : Bool :=
  decide (b ≤ 0x01) || (decide (0x04 ≤ b) && decide (b ≤ 0x2F)) || (decide (0x3A ≤ b) && decide (b ≤ 0x40)) ||
    (decide (0x47 ≤ b) && decide (b ≤ 0x60)) || decide (0x67 ≤ b)

/-- A lower-case digit is one of `a` to `f`, nibbles 10 to 15, and a garbage operand is a GARBAGE-class byte. -/
def Instr.wellFormed : Instr → Bool
  | .feedStart => true
  | .feedEnd => true
  | .feedHex n c => decide (c = .upper) || decide (10 ≤ n)
  | .feedGarbage b => isGarbageByte b
  | .tick _ => true
  | .sessionReset _ => true
  | .reserved _ => true

/-- `Instr.wellFormed` as a proposition. -/
abbrev WellFormed (i : Instr) : Prop := i.wellFormed = true

end Sys2Proof
end

