-- ==== Sys2Proof/Decode.lean ====
section
/-! DEFINITION. Reading a command word (spec/30_encoding.md): the byte classes, `hex_value`, the decoder, and
after it the encoder, the packet encoder and the printed command map. -/

namespace Sys2Proof

/-! ## Byte classes and the nibble operand (R82 to R86) -/

/-- The four byte classes (30_encoding.md R82). -/
inductive ByteClass where
  | start
  | stop
  | hex
  | garbage
  deriving DecidableEq, Repr

/-- `hex_value(b)`, defined for HEX-class bytes only (30_encoding.md R86). -/
def hexValue (b : Byte) : Option Nibble :=
  if 0x30 ≤ b ∧ b ≤ 0x39 then some ((b - 0x30).setWidth 4)
  else if 0x41 ≤ b ∧ b ≤ 0x46 then some ((b - 0x37).setWidth 4)
  else if 0x61 ≤ b ∧ b ≤ 0x66 then some ((b - 0x57).setWidth 4)
  else none

/-- The case a HEX-class byte was written in: only `a` to `f` are lower case (30_encoding.md R84). -/
def hexCase (b : Byte) : LetterCase :=
  if 0x61 ≤ b ∧ b ≤ 0x66 then .lower else .upper

/-- The class of a byte, tested in the order of BYTE's pseudocode (41_framer.md R100, 30_encoding.md R82). -/
def classify (b : Byte) : ByteClass :=
  if b = Config.startMarker then .start
  else if b = Config.endMarker then .stop
  else if (hexValue b).isSome then .hex
  else .garbage

/-! ## The decoder (R80, R81, R90) -/

/-- `CMD_WORD[9:8]`. -/
def kindField (w : CmdWord) : BitVec 2 := w.extractLsb' 8 2

/-- `CMD_WORD[7:0]`. -/
def byteField (w : CmdWord) : Byte := w.extractLsb' 0 8

/-- A BYTE command selects its operation by the class of its byte (41_framer.md R100). -/
def decodeByte (b : Byte) : Instr :=
  if b = Config.startMarker then .feedStart
  else if b = Config.endMarker then .feedEnd
  else match hexValue b with
    | some n => .feedHex n (hexCase b)
    | none => .feedGarbage b

/-- The decoder: total on the 1024 command words, with no illegal word (30_encoding.md R90). -/
def decode (w : CmdWord) : Instr :=
  if kindField w = 0 then decodeByte (byteField w)
  else if kindField w = 1 then .tick (byteField w)
  else if kindField w = 2 then .sessionReset (byteField w)
  else .reserved (byteField w)

/-- Why a number is no command: it does not fit the port's ten wires (30_encoding.md R80). -/
inductive DecodeError where
  | widerThanCommandPort
  deriving DecidableEq, Repr

/-- Decoding a number of any size, rejecting by name what is no 10-bit word. -/
def decodeNumber (w : Nat) : Except DecodeError Instr :=
  if w < 2 ^ 10 then .ok (decode (BitVec.ofNat 10 w)) else .error .widerThanCommandPort

/-- The instruction the decoder reads from an instruction of spec/opcode_table.json whose bits are `w`; bits
above `nbits` are 0. A command is one word on a 10-bit port, so no byte order arises (log 28). -/
def decodeTableWord (nbits w : Nat) : Option Instr :=
  match decodeNumber (w % 2 ^ nbits) with
  | .ok i => some i
  | .error _ => none

/-! ## The encoder -/

/-- `hexdig(n)`: the ASCII code of the digit `n` in a case, the inverse of `hexValue` (30_encoding.md R93). -/
def hexDigit (n : Nibble) (c : LetterCase) : Byte :=
  if n < 10 then 0x30 + n.setWidth 8
  else match c with
    | .upper => 0x37 + n.setWidth 8
    | .lower => 0x57 + n.setWidth 8

/-- A command word from its two fields, `kind ∥ byte` (30_encoding.md R80). -/
def commandWord (kind : BitVec 2) (byte : Byte) : CmdWord := kind ++ byte

/-- The word of an instruction (30_encoding.md R80 to R84). -/
def encode : Instr → CmdWord
  | .feedStart => commandWord 0 Config.startMarker
  | .feedEnd => commandWord 0 Config.endMarker
  | .feedHex n c => commandWord 0 (hexDigit n c)
  | .feedGarbage b => commandWord 0 b
  | .tick ignored => commandWord 1 ignored
  | .sessionReset ignored => commandWord 2 ignored
  | .reserved ignored => commandWord 3 ignored

/-- The 12 nibbles of a record's fields in wire order, most significant first (30_encoding.md R92, R93). -/
def wireNibbles (type : Byte) (value : BitVec 32) (checksum : Byte) : List Nibble :=
  [type.extractLsb' 4 4, type.extractLsb' 0 4,
   value.extractLsb' 28 4, value.extractLsb' 24 4, value.extractLsb' 20 4, value.extractLsb' 16 4,
   value.extractLsb' 12 4, value.extractLsb' 8 4, value.extractLsb' 4 4, value.extractLsb' 0 4,
   checksum.extractLsb' 4 4, checksum.extractLsb' 0 4]

/-- `ENCODE(type, value, checksum, case)`: the 14 bytes of a packet (30_encoding.md R92, R93). -/
def encodePacket (type : Byte) (value : BitVec 32) (checksum : Byte) (c : LetterCase) : List Byte :=
  [Config.startMarker] ++ (wireNibbles type value checksum).map (fun n => hexDigit n c) ++ [Config.endMarker]

/-- The checksum of a correct packet for a chosen type and value (30_encoding.md R93, 42_decoder.md R132). -/
def packetChecksum (type : Byte) (value : BitVec 32) : Byte :=
  type ^^^ value.extractLsb' 24 8 ^^^ value.extractLsb' 16 8 ^^^ value.extractLsb' 8 8 ^^^ value.extractLsb' 0 8

/-! ## The printed command map (R89) -/

/-- The operations the rows of the command map name. -/
inductive Opcode where
  | feedStart
  | feedEnd
  | feedHex
  | feedGarbage
  | tick
  | sessionReset
  | reserved
  deriving DecidableEq, Repr

/-- The operation of an instruction. -/
def Instr.opcode : Instr → Opcode
  | .feedStart => .feedStart
  | .feedEnd => .feedEnd
  | .feedHex _ _ => .feedHex
  | .feedGarbage _ => .feedGarbage
  | .tick _ => .tick
  | .sessionReset _ => .sessionReset
  | .reserved _ => .reserved

/-- One (match, mask) row of the command map. -/
structure CommandRow where
  opcode : Opcode
  pattern : CmdWord
  mask : CmdWord
  deriving DecidableEq, Repr

/-- A word matches a row when `(word & mask) == match` (30_encoding.md R89). -/
def CommandRow.matches (r : CommandRow) (w : CmdWord) : Bool := w &&& r.mask == r.pattern

/-- The marker rows of 30_encoding.md R89. -/
def markerRows : List CommandRow :=
  [⟨.feedStart, 0x002, 0x3FF⟩, ⟨.feedEnd, 0x003, 0x3FF⟩]

/-- The 22 FEED_HEX rows: nibbles 0 to 9, 10 to 15 upper case, 10 to 15 lower case. -/
def hexRows : List CommandRow :=
  [0x030, 0x031, 0x032, 0x033, 0x034, 0x035, 0x036, 0x037, 0x038, 0x039,
   0x041, 0x042, 0x043, 0x044, 0x045, 0x046,
   0x061, 0x062, 0x063, 0x064, 0x065, 0x066].map fun p => ⟨.feedHex, p, 0x3FF⟩

/-- The 16 FEED_GARBAGE rows, aligned blocks covering the GARBAGE byte values. -/
def garbageRows : List CommandRow :=
  [⟨.feedGarbage, 0x000, 0x3FE⟩, ⟨.feedGarbage, 0x004, 0x3FC⟩, ⟨.feedGarbage, 0x008, 0x3F8⟩,
   ⟨.feedGarbage, 0x010, 0x3F0⟩, ⟨.feedGarbage, 0x020, 0x3F0⟩, ⟨.feedGarbage, 0x03A, 0x3FE⟩,
   ⟨.feedGarbage, 0x03C, 0x3FC⟩, ⟨.feedGarbage, 0x040, 0x3FF⟩, ⟨.feedGarbage, 0x047, 0x3FF⟩,
   ⟨.feedGarbage, 0x048, 0x3F8⟩, ⟨.feedGarbage, 0x050, 0x3F0⟩, ⟨.feedGarbage, 0x060, 0x3FF⟩,
   ⟨.feedGarbage, 0x067, 0x3FF⟩, ⟨.feedGarbage, 0x068, 0x3F8⟩, ⟨.feedGarbage, 0x070, 0x3F0⟩,
   ⟨.feedGarbage, 0x080, 0x380⟩]

/-- The three rows of the other kinds. -/
def kindRows : List CommandRow :=
  [⟨.tick, 0x100, 0x300⟩, ⟨.sessionReset, 0x200, 0x300⟩, ⟨.reserved, 0x300, 0x300⟩]

/-- The whole command map of 30_encoding.md R89: 43 rows. -/
def commandRows : List CommandRow := markerRows ++ hexRows ++ garbageRows ++ kindRows

end Sys2Proof
end

