-- ==== Sys2Proof/Machine/State.lean ====
section
/-! DEFINITION. The machine's state as plain data (spec/10_state.md): the block's elements (R30), the ports
(R44), the host sequencer's elements (R48), and the reset state (R49). -/

namespace Sys2Proof.Machine

/-- A CardRecord (10_state.md R36). Equality is structural, all four fields (R37). -/
structure CardRecord where
  /-- `REC[48:41]`. -/
  type : Byte
  /-- `REC[40:9]`. -/
  value : BitVec 32
  /-- `REC[8:1]`, the received checksum. -/
  checksum : Byte
  /-- `REC[0]`. -/
  isValid : Bool
  deriving DecidableEq, Repr

/-- An event of the block (10_state.md R41). -/
inductive Event where
  | inserted (r : CardRecord)
  | removed (r : CardRecord)
  | invalid (r : CardRecord)
  | garbage (b : Byte)
  deriving DecidableEq, Repr

/-- The read-only status ports (10_state.md R44). -/
structure StatusPorts where
  stCardP : Bool
  stCard : CardRecord
  stLastP : Bool
  stLastT : Time
  stFault : Bool
  deriving DecidableEq, Repr

/-- The host sequencer's two modes (44_poll_loop.md R186, R187). -/
inductive HostMode where
  | events
  | readOne
  deriving DecidableEq, Repr

/-- Where the host sequencer stands in its pseudocode (44_poll_loop.md R182, R186, R187). -/
inductive HostLoc where
  /-- No mode runs. -/
  | idle
  /-- READ_ONE has issued its SESSION_RESET and sets `HL_DEADLINE` next. -/
  | deadline (timeout : Option Time)
  /-- The top of the loop: the stop check, then READ_ONE's deadline check. -/
  | top (m : HostMode)
  /-- ITERATE's `POLL()`. -/
  | poll (m : HostMode)
  /-- ITERATE's `issue TICK(clock())`. -/
  | tick (m : HostMode)
  /-- ITERATE's `HOOK()` is about to start. -/
  | hook (m : HostMode)
  /-- `HOOK()` runs; these actions of it remain. -/
  | acts (m : HostMode) (rest : List HookAction)
  deriving DecidableEq, Repr

/-- The transport, owned by the host (60_exceptions.md R205, R215). -/
inductive Transport where
  /-- Open, and usable for a construction. -/
  | available
  /-- It could not be opened. -/
  | unavailable
  /-- `close()` has released it. -/
  | closed
  deriving DecidableEq, Repr

/-- What the caller asks of the host. -/
inductive HostCall where
  /-- Issue one command word with its time, outside any mode (30_encoding.md R94). -/
  | command (w : CmdWord) (now : Time)
  /-- Open the transport, which succeeds or not (70_reset_and_hazards.md R234). -/
  | openTransport (succeeds : Bool)
  /-- The transport's second operation, `close()` (60_exceptions.md R215). -/
  | closeTransport
  /-- Construct the block anew, with this value on the static input `CFG_HB_INTERVAL` (10_state.md R44,
  70_reset_and_hazards.md R231, R234). -/
  | construct (presented : Time)
  /-- A block reset (70_reset_and_hazards.md R230). -/
  | blockReset
  /-- RUN_EVENTS (44_poll_loop.md R186). -/
  | runEvents
  /-- READ_ONE with its timeout (44_poll_loop.md R187). -/
  | readOne (timeout : Option Time)
  /-- A stop request made while no mode runs (44_poll_loop.md R193). -/
  | requestStop
  deriving DecidableEq, Repr

/-- What a finished mode returned: RUN_EVENTS no value, READ_ONE an optional record. -/
inductive CallResult where
  | events
  | card (r : Option CardRecord)
  deriving DecidableEq, Repr

/-- The host sequencer's state. The first three fields are 10_state.md R48; the rest the pseudocode of
44_poll_loop.md implies, and they are the model's own. -/
structure Sequencer where
  /-- `HL_STOP`. -/
  stop : Bool
  /-- `HL_DEADLINE`. -/
  deadline : Option Time
  /-- `HL_RESULT`. -/
  result : Option CardRecord
  /-- The place in the pseudocode. -/
  loc : HostLoc
  /-- The transport, as construction will find it (60_exceptions.md R205, R215; log 30). -/
  transport : Transport
  /-- The caller's requests, oldest first. -/
  calls : List HostCall
  /-- The latest `clock()` reading (44_poll_loop.md R180). -/
  clock : Time
  /-- `POLL()` results already settled, next first; after them free values (log 10). -/
  polls : List (Option Byte)
  /-- How far the clock moves before each reading, already settled, next first; after them free values (log 11). -/
  advances : List Time
  /-- What each run of HOOK does, already settled, next first; after them free values (log 12). -/
  hooks : List (List HookAction)
  /-- Whether a stop came from outside before each top check, already settled, next first; after them free values (log 13). -/
  stops : List Bool
  /-- How many free values have been drawn. -/
  draws : Nat
  /-- Events forwarded to the event sink, oldest first (44_poll_loop.md R185). -/
  sink : List Event
  /-- Events forwarded to the observability hook, oldest first (44_poll_loop.md R185). -/
  observed : List Event
  /-- What finished modes returned, oldest first. -/
  returns : List CallResult
  /-- The status ports as HOOK last read them (44_poll_loop.md R183). -/
  seen : Option StatusPorts
  deriving DecidableEq, Repr

/-- The whole machine: the block, its ports and the host sequencer. The static input `CFG_HB_INTERVAL` is not here:
it holds the parameter `HB_INTERVAL` for the whole run (00_scope.md R11, R13; log 4). -/
structure State where
  /-- `FA_BUF[0..11]` (10_state.md R30, R32). -/
  faBuf : Vector Nibble 12
  /-- `FA_CNT`, 0 to 13, where 13 means more than 12 (R32). -/
  faCnt : Fin 14
  /-- `CS_CARD_P` (R35). -/
  csCardP : Bool
  /-- `CS_CARD` (R35, R36). -/
  csCard : CardRecord
  /-- `CS_LAST_P` (R35). -/
  csLastP : Bool
  /-- `CS_LAST_T` (R35, R38). -/
  csLastT : Time
  /-- `FLT_RSVD`, sticky (R42). -/
  fltRsvd : Bool
  /-- `EV`, every event emitted so far, oldest first (R40). -/
  ev : List Event
  /-- `CMD_VALID` (R44). -/
  cmdValid : Bool
  /-- `CMD_WORD` (R44). -/
  cmdWord : CmdWord
  /-- `CMD_NOW` (R44). -/
  cmdNow : Time
  /-- The event port for the command last run; `none` is `EV_VALID` = 0 (R41, R44; log 9). -/
  evPort : Option Event
  /-- The host sequencer (R48). -/
  seq : Sequencer
  deriving DecidableEq, Repr

/-- Why the machine stops. -/
inductive Fault where
  /-- TRANSPORT_UNAVAILABLE (60_exceptions.md R203 code 4, R205): raised by construction when the transport is
  unavailable or closed. No block exists and no run follows, as the spec says, so it is safe. -/
  | transportUnavailable
  deriving DecidableEq, Repr

/-- What the model gives no meaning. -/
inductive Refusal where
  /-- Raised by an arm of exec whose instruction has no meaning yet. Safe: nothing is claimed of it. -/
  | notModelled (mnemonic : String)
  /-- Raised by the host sequencer when HOOK issues anything but SESSION_RESET: 44_poll_loop.md R183 puts such a
  hook outside the spec and says that the model refuses it. Safe. -/
  | hookOutsideSpec (w : CmdWord)
  /-- Raised by `stepWith` alone, where a step leaves a time that `TS_W` bits cannot hold: 70_reset_and_hazards.md
  R245 puts the run outside the spec and says that the model refuses it. Safe. -/
  | timeOutsideRegister
  /-- Raised by construction where the host presents another interval than the run's `HB_INTERVAL`: R238 of
  70_reset_and_hazards.md puts the run outside the spec, and 93 U13 says that the model refuses it. Safe. -/
  | intervalChanged
  deriving DecidableEq, Repr

/-- The record with every field 0: what `CS_CARD` holds at reset, where the spec leaves it unspecified.
DESIGN CHOICE, unsafe (log 2). -/
def CardRecord.zero : CardRecord := { type := 0, value := 0, checksum := 0, isValid := false }

/-- The host before anyone asked it anything. DESIGN CHOICE, unsafe (log 6): the spec gives the sequencer's
elements a value only at the start of each mode. -/
def Sequencer.initial : Sequencer :=
  { stop := false, deadline := none, result := none, loc := .idle, transport := .available,
    calls := [], clock := 0, polls := [], advances := [], hooks := [], stops := [], draws := 0, sink := [], observed := [], returns := [], seen := none }

/-- The machine right after a block reset (10_state.md R49, R44). `FA_BUF`, `CS_CARD`, `CS_LAST_T`, the
don't-care command ports and the host hold the values of logs 1 to 3, 5 and 6. -/
def State.reset : State :=
  { faBuf := Vector.replicate 12 0
    faCnt := 0
    csCardP := false
    csCard := CardRecord.zero
    csLastP := false
    csLastT := 0
    fltRsvd := false
    ev := []
    cmdValid := false
    cmdWord := 0
    cmdNow := 0
    evPort := none
    seq := Sequencer.initial }

end Sys2Proof.Machine
end

