-- ==== Sys2Proof/Machine/Operands.lean ====
section
/-! DEFINITION. Assembling operands: byte pairs and big-endian accumulation of nibbles (spec/20_memory.md R62,
42_decoder.md R132 to R136), the bit layout of a record (10_state.md R36) and of an event (R41). -/

namespace Sys2Proof.Machine

/-- Nibble `i` of a fragment; DECODE reads only positions below 12 of a 12-nibble fragment (00_scope.md R22). -/
def nibbleAt (f : List Nibble) (i : Nat) : Nibble := f.getD i 0

/-- A byte pair, `(hi << 4) | lo` (20_memory.md R62). -/
def bytePair (hi lo : Nibble) : Byte := (hi.setWidth 8 <<< 4) ||| lo.setWidth 8

/-- Byte pair `i` of a fragment: nibbles `2i` and `2i+1` (42_decoder.md R132). -/
def bytePairAt (f : List Nibble) (i : Nat) : Byte := bytePair (nibbleAt f (2 * i)) (nibbleAt f (2 * i + 1))

/-- The `value` field: nibbles 2 to 9, nibble 2 most significant (42_decoder.md R134). -/
def valueOf (f : List Nibble) : BitVec 32 :=
  ((nibbleAt f 2).setWidth 32 <<< 28) ||| ((nibbleAt f 3).setWidth 32 <<< 24) |||
  ((nibbleAt f 4).setWidth 32 <<< 20) ||| ((nibbleAt f 5).setWidth 32 <<< 16) |||
  ((nibbleAt f 6).setWidth 32 <<< 12) ||| ((nibbleAt f 7).setWidth 32 <<< 8) |||
  ((nibbleAt f 8).setWidth 32 <<< 4) ||| (nibbleAt f 9).setWidth 32

/-- The `type` field: nibbles 0 and 1 (42_decoder.md R135). -/
def typeOf (f : List Nibble) : Byte := bytePair (nibbleAt f 0) (nibbleAt f 1)

/-- The received checksum: nibbles 10 and 11 (42_decoder.md R133). -/
def receivedChecksum (f : List Nibble) : Byte := bytePair (nibbleAt f 10) (nibbleAt f 11)

/-- The 49 bits of a record, `type ∥ value ∥ checksum ∥ is_valid` (10_state.md R36). -/
def CardRecord.bits (r : CardRecord) : BitVec 49 :=
  r.type ++ r.value ++ r.checksum ++ BitVec.ofBool r.isValid

/-- The record of 49 bits, the inverse of `CardRecord.bits`. -/
def recordOfBits (v : BitVec 49) : CardRecord :=
  { type := v.extractLsb' 41 8, value := v.extractLsb' 9 32, checksum := v.extractLsb' 1 8, isValid := v.getLsbD 0 }

/-- `EV_KIND` of an event (10_state.md R41). -/
def Event.kind : Event → BitVec 3
  | .inserted _ => 0b001
  | .removed _ => 0b010
  | .invalid _ => 0b011
  | .garbage _ => 0b100

/-- `EV_DATA` of an event; a garbage report zero-extends its byte (10_state.md R41). -/
def Event.data : Event → BitVec 49
  | .inserted r => r.bits
  | .removed r => r.bits
  | .invalid r => r.bits
  | .garbage b => b.setWidth 49

/-- The event port's three wires. -/
structure EventPort where
  valid : Bool
  kind : BitVec 3
  data : BitVec 49
  deriving DecidableEq, Repr

/-- `EV_VALID`, `EV_KIND` and `EV_DATA` as the host reads them (10_state.md R41). -/
def State.eventPort (s : State) : EventPort :=
  match s.evPort with
  | none => { valid := false, kind := 0, data := 0 }
  | some e => { valid := true, kind := e.kind, data := e.data }

/-- The status ports mirror the registers (10_state.md R44). -/
def State.status (s : State) : StatusPorts :=
  { stCardP := s.csCardP, stCard := s.csCard, stLastP := s.csLastP, stLastT := s.csLastT, stFault := s.fltRsvd }

end Sys2Proof.Machine
end

