-- ==== Sys2Proof/Machine/Flags.lean ====
section
/-! DEFINITION. The block's boolean computations (spec/10_state.md R43): the checksum and `is_valid`
(42_decoder.md R132, R137), `SAME` (43_session.md R151), and the heartbeat's lapse (43_session.md R160). -/

namespace Sys2Proof.Machine

/-- The calculated checksum: the XOR of the five byte pairs of nibbles 0 to 9 (42_decoder.md R132). -/
def calculatedChecksum (f : List Nibble) : Byte :=
  (List.range 5).foldl (fun acc i => acc ^^^ bytePairAt f i) 0

/-- `is_valid` of a 12-nibble fragment (42_decoder.md R137). -/
def checksumMatches (f : List Nibble) : Bool := calculatedChecksum f == receivedChecksum f

/-- `SAME(rec)`: a card is present and it is this record (43_session.md R151). -/
def State.same (s : State) (rec : CardRecord) : Bool := s.csCardP && decide (s.csCard = rec)

/-- `sat_sub(a, b)` (00_scope.md R17). -/
def satSub (a b : Time) : Time := if b ≤ a then a - b else 0

/-- The heartbeat has lapsed: it is enabled, a last valid read is held, and the elapsed time exceeds the
interval (43_session.md R160, R162, R163). -/
def State.lapsed (hbInterval now : Time) (s : State) : Bool :=
  s.csLastP && decide (0 < hbInterval) && decide (hbInterval < satSub now s.csLastT)

/-- A time of `tsW` bits (00_scope.md R19). -/
def fitsWidth (tsW : Nat) (t : Time) : Bool := decide (t < 2 ^ tsW)

/-- Every time the host supplies fits `TS_W` bits: the parameter `HB_INTERVAL`, `CMD_NOW`, the clock's reading, and
READ_ONE's `clock() + timeout` (70_reset_and_hazards.md R245). -/
def State.suppliedTimesFit (p : Parameters) (s : State) : Bool :=
  fitsWidth p.tsW p.hbInterval && fitsWidth p.tsW s.cmdNow && fitsWidth p.tsW s.seq.clock &&
    s.seq.deadline.all (fitsWidth p.tsW)

/-- Every time of the run fits `TS_W` bits. -/
def State.timesFit (p : Parameters) (s : State) : Bool := s.suppliedTimesFit p && fitsWidth p.tsW s.csLastT

end Sys2Proof.Machine
end

