-- ==== Sys2Proof/Machine/Ops.lean ====
section
/-! DEFINITION. The named operations over the state: the command port, the event output, the fragment buffer,
raising a fault, block reset and construction. -/

namespace Sys2Proof.Machine

/-! ## The command and event ports -/

/-- The host presents a command: `CMD_VALID` = 1 with the word and its time (30_encoding.md R80). -/
def State.present (w : CmdWord) (now : Time) (s : State) : State :=
  { s with cmdValid := true, cmdWord := w, cmdNow := now }

/-- A command begins: the event of the command before it leaves the port (60_exceptions.md R207). -/
def State.beginCommand (s : State) : State := { s with evPort := none }

/-- `emit`: the event joins the history and stands on the port for this command (00_scope.md R20, 10_state.md R40). -/
def State.emit (e : Event) (s : State) : State := { s with ev := s.ev ++ [e], evPort := some e }

/-! ## Raising a fault -/

/-- The faults `raise` can record: one (60_exceptions.md R200). -/
inductive CommandFault where
  | reservedCommand
  deriving DecidableEq, Repr

/-- `raise F(info)`: the sticky bit of `F` is set and nothing else changes. The block has no trap entry: no pc
or status is saved, there is no vector and no return (60_exceptions.md R200, R209, R210). -/
def State.raise (f : CommandFault) (s : State) : State :=
  match f with
  | .reservedCommand => { s with fltRsvd := true }

/-! ## The fragment buffer -/

/-- The empty buffer; the nibbles stay behind, unread (10_state.md R34). -/
def State.clearFragment (s : State) : State := { s with faCnt := 0 }

/-- The candidate fragment a flush hands on (41_framer.md R106). -/
inductive Fragment where
  /-- At most 12 nibbles, position 0 first. -/
  | exact (f : List Nibble)
  /-- More than 12 nibbles, which are not kept. -/
  | overlong
  deriving DecidableEq, Repr

/-- `FRAGMENT(FA_BUF, FA_CNT)` (41_framer.md R106, 10_state.md R32). -/
def State.fragment (s : State) : Fragment :=
  if s.faCnt.val ≤ 12 then .exact (s.faBuf.toList.take s.faCnt.val) else .overlong

/-- The append of FEED_HEX: below 12 nibbles the new one goes to the end, at 12 or 13 the count becomes 13 and
no element is written (41_framer.md R108, R109, R110). -/
def State.appendNibble (n : Nibble) (s : State) : State :=
  if h : s.faCnt.val < 12 then
    { s with faBuf := s.faBuf.set s.faCnt.val n h, faCnt := ⟨s.faCnt.val + 1, by omega⟩ }
  else
    { s with faCnt := 13 }

/-! ## The session registers -/

/-- A valid read refreshes the heartbeat (43_session.md R155). -/
def State.refresh (now : Time) (s : State) : State := { s with csLastP := true, csLastT := now }

/-- A record becomes the current card (43_session.md R156). -/
def State.setCard (rec : CardRecord) (s : State) : State := { s with csCardP := true, csCard := rec }

/-- Both present bits cleared, by a removal and by SESSION_RESET; the payloads are not written (43_session.md R161, R170). -/
def State.clearSession (s : State) : State := { s with csCardP := false, csLastP := false }

/-! ## Block reset and construction -/

/-- A block reset: every block element at its value of 10_state.md R49 and no event. The host's ports and the host
are not the block's (70_reset_and_hazards.md R230, R233). -/
def State.blockReset (s : State) : State :=
  { State.reset with
    cmdValid := s.cmdValid, cmdWord := s.cmdWord, cmdNow := s.cmdNow, seq := s.seq }

/-- Construction: check the transport, sample `CFG_HB_INTERVAL`, reset the block (70_reset_and_hazards.md R231).
It fails before any block exists when the transport cannot be used (60_exceptions.md R205). What it samples is the
parameter `HB_INTERVAL`, one value for the whole run; a host that presents another is refused (R238, 93 U13). -/
def State.construct (hbInterval presented : Time) (s : State) : Host.Outcome State Fault Refusal :=
  match s.seq.transport with
  | .available => if presented = hbInterval then .next s.blockReset else .refused .intervalChanged
  | .unavailable => .fault .transportUnavailable
  | .closed => .fault .transportUnavailable

end Sys2Proof.Machine
end

