-- ==== Sys2Proof/Machine/Decoder.lean ====
section
/-! DEFINITION. The FragmentDecoder (spec/42_decoder.md): DECODE, a pure function of the candidate fragment. -/

namespace Sys2Proof.Machine

/-- DECODE of a fragment whose nibbles are known (42_decoder.md R130, R131). -/
def decodeNibbles (f : List Nibble) : Option CardRecord :=
  if f.length = Config.fragLen then
    some { type := typeOf f, value := valueOf f, checksum := receivedChecksum f, isValid := checksumMatches f }
  else none

/-- `DECODE(f)`: an overlong fragment gives no record (42_decoder.md R130, R131). -/
def decodeFragment : Fragment → Option CardRecord
  | .exact f => decodeNibbles f
  | .overlong => none

end Sys2Proof.Machine
end

