-- ==== Sys2Proof/Machine/Session.lean ====
section
/-! DEFINITION. The CardSession (spec/43_session.md): SESSION_FRAGMENT, and the meanings of TICK and SESSION_RESET. -/

namespace Sys2Proof.Machine

/-- What a valid record does: refresh, then become the current card unless it already is (43_session.md R155 to R157). -/
def acceptRecord (rec : CardRecord) (now : Time) (s : State) : State :=
  if s.same rec then s.refresh now else ((s.refresh now).setCard rec).emit (.inserted rec)

/-- `SESSION_FRAGMENT(r, now)`: `is_valid` is read before any session element is written (43_session.md R150, R152, R153). -/
def sessionFragment (r : Option CardRecord) (now : Time) (s : State) : State :=
  match r with
  | none => s
  | some rec => if rec.isValid then acceptRecord rec now s else s.emit (.invalid rec)

/-- `TICK(now)`'s effect once the command has begun: the event carries the card as it stood before the clear
(43_session.md R160, R161). The interval is a parameter (00_scope.md R11). -/
def heartbeat (hbInterval now : Time) (s : State) : State :=
  if s.lapsed hbInterval now then (s.emit (.removed s.csCard)).clearSession else s

/-- TICK at the parameter `HB_INTERVAL` (43_session.md R160). The word's byte bits are ignored (30_encoding.md
R87). -/
def execTickAt (hbInterval : Time) (_ignored : Byte) (s : State) : Host.Outcome State Fault Refusal :=
  .next (heartbeat hbInterval s.cmdNow s.beginCommand)

/-- TICK in the interface's run, whose `HB_INTERVAL` is open (43_session.md R160; log 4). -/
def execTick (ignored : Byte) (s : State) : Host.Outcome State Fault Refusal :=
  execTickAt Config.hbInterval ignored s

/-- SESSION_RESET: the session is emptied, no event, the framer untouched (43_session.md R170, R171). -/
def execSessionReset (_ignored : Byte) (s : State) : Host.Outcome State Fault Refusal :=
  .next s.beginCommand.clearSession

end Sys2Proof.Machine
end

