-- ==== Sys2Proof/Machine/Framer.lean ====
section
/-! DEFINITION. The FrameAssembler (spec/41_framer.md): FLUSH, and the meanings of the four BYTE operations. -/

namespace Sys2Proof.Machine

/-- `FLUSH(now)`: a non-empty buffer is handed on as a candidate fragment, whatever its length, and cleared
(41_framer.md R105). -/
def flush (now : Time) (s : State) : State :=
  if s.faCnt = 0 then s else sessionFragment (decodeFragment s.fragment) now s.clearFragment

/-- FEED_START (41_framer.md R103). -/
def execFeedStart (s : State) : Host.Outcome State Fault Refusal :=
  .next (flush s.cmdNow s.beginCommand)

/-- FEED_END (41_framer.md R104). -/
def execFeedEnd (s : State) : Host.Outcome State Fault Refusal :=
  .next (flush s.cmdNow s.beginCommand)

/-- FEED_HEX (41_framer.md R108). Letter case is not kept (R111). -/
def execFeedHex (n : Nibble) (_c : LetterCase) (s : State) : Host.Outcome State Fault Refusal :=
  .next (s.beginCommand.appendNibble n)

/-- FEED_GARBAGE: the buffer is discarded and the byte reported, whether or not the buffer was empty
(41_framer.md R112, R113). -/
def execFeedGarbage (b : Byte) (s : State) : Host.Outcome State Fault Refusal :=
  .next (s.beginCommand.clearFragment.emit (.garbage b))

end Sys2Proof.Machine
end

