-- ==== Sys2Proof/Machine/Reserved.lean ====
section
/-! DEFINITION. The reserved command (spec/60_exceptions.md R201). -/

namespace Sys2Proof.Machine

/-- RESERVED raises RESERVED_COMMAND: the sticky bit is set, nothing else of the block changes, and the block
runs on (60_exceptions.md R200, R201, R202). -/
def execReserved (_ignored : Byte) (s : State) : Host.Outcome State Fault Refusal :=
  .next (s.beginCommand.raise .reservedCommand)

end Sys2Proof.Machine
end

