-- ==== Sys2Proof/Machine/Dispatch.lean ====
section
/-! DEFINITION. One arm per constructor of Instr, each a direct call of its meaning. -/

namespace Sys2Proof.Machine

/-- The meaning of a decoded command at the time `CMD_NOW` holds. -/
def exec (i : Instr) (s : State) : Host.Outcome State Fault Refusal :=
  match i with
  | .feedStart => Sys2Proof.Machine.execFeedStart s
  | .feedEnd => Sys2Proof.Machine.execFeedEnd s
  | .feedHex n c => Sys2Proof.Machine.execFeedHex n c s
  | .feedGarbage b => Sys2Proof.Machine.execFeedGarbage b s
  | .tick ignored => Sys2Proof.Machine.execTick ignored s
  | .sessionReset ignored => Sys2Proof.Machine.execSessionReset ignored s
  | .reserved ignored => Sys2Proof.Machine.execReserved ignored s

end Sys2Proof.Machine
end

