-- ==== Sys2Proof/Machine/Parametric.lean ====
section
/-! DEFINITION. The meaning of a command at any value of the parameter `HB_INTERVAL` (spec/00_scope.md R11). `exec` is
the same at the open value `Config.hbInterval`. -/

namespace Sys2Proof.Machine

/-- The meaning of a command in a run at the parameter `HB_INTERVAL`, which TICK alone reads (00_scope.md R11,
43_session.md R160). -/
def execAt (hbInterval : Time) (i : Instr) (s : State) : Host.Outcome State Fault Refusal :=
  match i with
  | .feedStart => exec .feedStart s
  | .feedEnd => exec .feedEnd s
  | .feedHex n c => exec (.feedHex n c) s
  | .feedGarbage b => exec (.feedGarbage b) s
  | .tick ignored => execTickAt hbInterval ignored s
  | .sessionReset ignored => exec (.sessionReset ignored) s
  | .reserved ignored => exec (.reserved ignored) s

end Sys2Proof.Machine
end

