-- ==== Sys2Proof/Machine/Sequencer.lean ====
section
/-! DEFINITION. The host sequencer (spec/44_poll_loop.md): the draws from outside, taking an event, and one host
action at each place of the pseudocode of RUN_EVENTS, READ_ONE and ITERATE. A host action happens while no command
is presented; an `issue` presents one, and the next step runs it. -/

namespace Sys2Proof.Machine

/-! ## Draws from outside -/

/-- `POLL()`: a free draw of a byte or none (44_poll_loop.md R180, R181). -/
def Sequencer.drawPoll (q : Sequencer) : Option Byte × Sequencer :=
  match q.polls with
  | p :: rest => (p, { q with polls := rest })
  | [] => (Config.freePoll q.draws, { q with draws := q.draws + 1 })

/-- `clock()`: a reading at least every earlier one (44_poll_loop.md R180). -/
def Sequencer.readClock (q : Sequencer) : Time × Sequencer :=
  match q.advances with
  | a :: rest => (q.clock + a, { q with clock := q.clock + a, advances := rest })
  | [] =>
    (q.clock + Config.freeAdvance q.draws,
      { q with clock := q.clock + Config.freeAdvance q.draws, draws := q.draws + 1 })

/-- What `HOOK()` does this time (44_poll_loop.md R183). -/
def Sequencer.drawHook (q : Sequencer) : List HookAction × Sequencer :=
  match q.hooks with
  | acts :: rest => (acts, { q with hooks := rest })
  | [] => (Config.freeHook q.draws, { q with draws := q.draws + 1 })

/-- Whether a stop was requested from outside since the last check; a request sets `HL_STOP` (44_poll_loop.md
R193, R194). -/
def Sequencer.drawStop (q : Sequencer) : Sequencer :=
  match q.stops with
  | b :: rest => { q with stop := q.stop || b, stops := rest }
  | [] => { q with stop := q.stop || Config.freeStop q.draws, draws := q.draws + 1 }

/-! ## Taking an event -/

/-- READ_ONE is running (44_poll_loop.md R188). -/
def HostLoc.inReadOne : HostLoc → Bool
  | .idle => false
  | .deadline _ => true
  | .top m => m == .readOne
  | .poll m => m == .readOne
  | .tick m => m == .readOne
  | .hook m => m == .readOne
  | .acts m _ => m == .readOne

/-- READ_ONE is setting up: its SESSION_RESET is issued and its deadline is not set yet (44_poll_loop.md R187). -/
def HostLoc.settingUp : HostLoc → Bool
  | .idle => false
  | .deadline _ => true
  | .top _ => false
  | .poll _ => false
  | .tick _ => false
  | .hook _ => false
  | .acts _ _ => false

/-- The insertion watcher of READ_ONE: the first inserted record is the result, and a stop is requested
(44_poll_loop.md R188). -/
def Sequencer.watch (e : Event) (q : Sequencer) : Sequencer :=
  match e with
  | .inserted rec => if q.loc.inReadOne && q.result.isNone then { q with result := some rec, stop := true } else q
  | .removed _ => q
  | .invalid _ => q
  | .garbage _ => q

/-- The three card events go to the event sink, a garbage report to the observability hook (44_poll_loop.md R185). -/
def Sequencer.forward (e : Event) (q : Sequencer) : Sequencer :=
  match e with
  | .garbage _ => { q with observed := q.observed ++ [e] }
  | .inserted _ => { q with sink := q.sink ++ [e] }
  | .removed _ => { q with sink := q.sink ++ [e] }
  | .invalid _ => { q with sink := q.sink ++ [e] }

/-- The host takes the event on the port, if there is one (44_poll_loop.md R180, R185, R188). -/
def Sequencer.take (port : Option Event) (q : Sequencer) : Sequencer :=
  match port with
  | none => q
  | some e => (q.watch e).forward e

/-- A command has completed: `CMD_VALID` falls, and the host takes the event before it presents another command
(44_poll_loop.md R180, 70_reset_and_hazards.md R237, R243). -/
def State.completeCommand (s : State) : State := { s with cmdValid := false, seq := s.seq.take s.evPort }

/-! ## Host actions -/

/-- A mode ends: the caller gets its result (44_poll_loop.md R186, R187). -/
def Sequencer.finish (r : CallResult) (q : Sequencer) : Sequencer :=
  { q with loc := .idle, returns := q.returns ++ [r] }

/-- READ_ONE sets its deadline from a clock reading, or has none (44_poll_loop.md R187). -/
def hostDeadline (timeout : Option Time) (s : State) : State :=
  match timeout with
  | none => { s with seq := { s.seq with deadline := none, loc := .top .readOne } }
  | some d =>
    { s with seq := { s.seq.readClock.2 with deadline := some (s.seq.readClock.1 + d), loc := .top .readOne } }

/-- READ_ONE's deadline check: the clock is read only where there is a deadline, and the call ends when the
reading has reached it (44_poll_loop.md R187, R190). -/
def Sequencer.checkDeadline (q : Sequencer) : Sequencer :=
  match q.deadline with
  | none => { q with loc := .poll .readOne }
  | some d =>
    if d ≤ q.readClock.1 then q.readClock.2.finish (.card none) else { q.readClock.2 with loc := .poll .readOne }

/-- The top of the loop: the stop check first, then READ_ONE's deadline (44_poll_loop.md R186, R187, R192, R193). -/
def Sequencer.atTop (m : HostMode) (q : Sequencer) : Sequencer :=
  match m with
  | .events => if q.drawStop.stop then q.drawStop.finish .events else { q.drawStop with loc := .poll .events }
  | .readOne => if q.drawStop.stop then q.drawStop.finish (.card q.result) else q.drawStop.checkDeadline

/-- The host action at the top of the loop. -/
def hostTop (m : HostMode) (s : State) : State := { s with seq := s.seq.atTop m }

/-- ITERATE's poll: a byte that came is issued at a clock reading, without one nothing is issued (44_poll_loop.md R182). -/
def hostPoll (m : HostMode) (s : State) : State :=
  match s.seq.drawPoll.1 with
  | some b =>
    { s with seq := { s.seq.drawPoll.2.readClock.2 with loc := .tick m } }.present
      (commandWord 0 b) s.seq.drawPoll.2.readClock.1
  | none => { s with seq := { s.seq.drawPoll.2 with loc := .tick m } }

/-- ITERATE's TICK, issued in every iteration at a clock reading of its own (44_poll_loop.md R182). -/
def hostTick (m : HostMode) (s : State) : State :=
  { s with seq := { s.seq.readClock.2 with loc := .hook m } }.present (commandWord 1 0) s.seq.readClock.1

/-- ITERATE's HOOK begins (44_poll_loop.md R182). -/
def hostHook (m : HostMode) (s : State) : State :=
  { s with seq := { s.seq.drawHook.2 with loc := .acts m s.seq.drawHook.1 } }

/-- One action of HOOK, or the end of the iteration. A hook may read the status ports, request a stop and issue
SESSION_RESET; a hook that issues anything else is refused (44_poll_loop.md R183). -/
def hostActs (m : HostMode) (actions : List HookAction) (s : State) : Host.Outcome State Fault Refusal :=
  match actions with
  | [] => .next { s with seq := { s.seq with loc := .top m } }
  | .readStatus :: rest => .next { s with seq := { s.seq with seen := some s.status, loc := .acts m rest } }
  | .requestStop :: rest => .next { s with seq := { s.seq with stop := true, loc := .acts m rest } }
  | .issue w :: rest =>
    if kindField w = 2 then .next ({ s with seq := { s.seq with loc := .acts m rest } }.present w s.cmdNow)
    else .refused (.hookOutsideSpec w)

/-- The caller's next request. With none, the machine waits and holds its state (60_exceptions.md R221). A mode
clears `HL_STOP` on entry, and READ_ONE issues SESSION_RESET, with byte bits 0 by convention (44_poll_loop.md R186,
R187, R193, 30_encoding.md R94). A construction needs the parameter `HB_INTERVAL` (70_reset_and_hazards.md R231). -/
def hostCall (hbInterval : Time) (s : State) : Host.Outcome State Fault Refusal :=
  match s.seq.calls with
  | [] => .next s
  | .command w now :: rest => .next ({ s with seq := { s.seq with calls := rest } }.present w now)
  | .openTransport succeeds :: rest =>
    .next { s with
      seq := { s.seq with calls := rest, transport := if succeeds then .available else .unavailable } }
  | .closeTransport :: rest => .next { s with seq := { s.seq with calls := rest, transport := .closed } }
  | .construct presented :: rest => { s with seq := { s.seq with calls := rest } }.construct hbInterval presented
  | .blockReset :: rest => .next { s with seq := { s.seq with calls := rest } }.blockReset
  | .runEvents :: rest => .next { s with seq := { s.seq with calls := rest, stop := false, loc := .top .events } }
  | .readOne timeout :: rest =>
    .next ({ s with
        seq := { s.seq with calls := rest, stop := false, result := none, loc := .deadline timeout } }.present
      (commandWord 2 0) s.cmdNow)
  | .requestStop :: rest => .next { s with seq := { s.seq with calls := rest, stop := true } }

/-- One host action, in a run at the parameter `HB_INTERVAL`. -/
def hostStep (hbInterval : Time) (s : State) : Host.Outcome State Fault Refusal :=
  match s.seq.loc with
  | .idle => hostCall hbInterval s
  | .deadline timeout => .next (hostDeadline timeout s)
  | .top m => .next (hostTop m s)
  | .poll m => .next (hostPoll m s)
  | .tick m => .next (hostTick m s)
  | .hook m => .next (hostHook m s)
  | .acts m actions => hostActs m actions s

end Sys2Proof.Machine
end

