-- ==== Sys2Proof/Machine/Step.lean ====
section
/-! DEFINITION. One step of the machine: the presented command, or one host action. -/

namespace Sys2Proof.Machine

/-- A step in a run at the parameter `HB_INTERVAL`, with unbounded times (00_scope.md R11). With `CMD_VALID` = 1 the
block runs the presented command and the host takes its event; otherwise the host acts (00_scope.md R21,
20_memory.md R69). -/
def stepAt (hbInterval : Time) (s : State) : Host.Outcome State Fault Refusal :=
  if s.cmdValid then
    match execAt hbInterval (decode s.cmdWord) s with
    | .next t => .next t.completeCommand
    | .fault f => .fault f
    | .refused r => .refused r
  else hostStep hbInterval s

/-- The step relation with `TS_W` as an argument too: a run whose times would wrap is refused by name (00_scope.md
R11, 70_reset_and_hazards.md R245). -/
def stepWith (p : Parameters) (s : State) : Host.Outcome State Fault Refusal :=
  match stepAt p.hbInterval s with
  | .next t => if t.timesFit p then .next t else .refused .timeOutsideRegister
  | .fault f => .fault f
  | .refused r => .refused r

/-- The interface's step: the run's `HB_INTERVAL` is an open constant and no part of the state, and times are
unbounded naturals (00_scope.md R11; log 4, log 14). -/
def step (s : State) : Host.Outcome State Fault Refusal := stepAt Config.hbInterval s

/-- `s` with the word of `nbits` bits presented on the command port, which is where a step takes its next
instruction from (log 7, log 28). The time is what `CMD_NOW` holds. -/
def State.withFetchWord (s : State) (nbits w : Nat) : State :=
  s.present (BitVec.ofNat 10 (w % 2 ^ nbits)) s.cmdNow

end Sys2Proof.Machine
end

