-- ==== Sys2Proof/Machine/Conditions.lean ====
section
/-! DEFINITION. The condition taxonomy (spec/60_exceptions.md R203): which condition a command meets. Only
RESERVED_COMMAND sets a fault bit; the others are handled in the meanings. -/

namespace Sys2Proof.Machine

/-- A condition with what it records (60_exceptions.md R203). -/
inductive Condition where
  | resync (b : Byte)
  | malformedFragment
  | checksumMismatch (rec : CardRecord)
  | transportUnavailable
  | reservedCommand (w : CmdWord)
  deriving DecidableEq, Repr

/-- The condition's code (60_exceptions.md R203). -/
def Condition.code : Condition → Nat
  | .resync _ => 1
  | .malformedFragment => 2
  | .checksumMismatch _ => 3
  | .transportUnavailable => 4
  | .reservedCommand _ => 5

/-- The condition a marker's flush meets. -/
def flushCondition (s : State) : Option Condition :=
  if s.faCnt = 0 then none
  else match decodeFragment s.fragment with
    | none => some .malformedFragment
    | some rec => if rec.isValid then none else some (.checksumMismatch rec)

/-- The condition a command meets: at most one (60_exceptions.md R208, R210). -/
def conditionOf (i : Instr) (s : State) : Option Condition :=
  match i with
  | .feedStart => flushCondition s
  | .feedEnd => flushCondition s
  | .feedHex _ _ => none
  | .feedGarbage b => some (.resync b)
  | .tick _ => none
  | .sessionReset _ => none
  | .reserved ignored => some (.reservedCommand (encode (.reserved ignored)))

end Sys2Proof.Machine
end

