-- ==== Sys2Proof/Machine/Source.lean ====
section
/-! DEFINITION. The source's own machine, as spec/ quotes it: a fragment buffer without bound and optional session
fields (10_state.md R33, R35, 41_framer.md R103, R108, R112, 43_session.md R152 to R160). The block's bounded
registers are claimed to show exactly its behaviour. -/

namespace Sys2Proof.Machine

/-- The source's state: "in-progress buffer of nibble values", `current_card` and `last_valid_read_at`. -/
structure SourceState where
  buffer : List Nibble
  currentCard : Option CardRecord
  lastValidReadAt : Option Time
  out : List Event
  deriving DecidableEq, Repr

/-- `on_fragment_decoded(record, now)`. -/
def SourceState.onFragment (r : Option CardRecord) (now : Time) (m : SourceState) : SourceState :=
  match r with
  | none => m
  | some rec =>
    if rec.isValid then
      if m.currentCard = some rec then { m with lastValidReadAt := some now }
      else { m with lastValidReadAt := some now, currentCard := some rec, out := m.out ++ [.inserted rec] }
    else { m with out := m.out ++ [.invalid rec] }

/-- A marker: "if the buffer is non-empty, the buffer is flushed as a candidate fragment and then cleared". -/
def SourceState.marker (now : Time) (m : SourceState) : SourceState :=
  match m.buffer with
  | [] => m
  | n :: rest => { m with buffer := [] }.onFragment (decodeNibbles (n :: rest)) now

/-- `on_tick(now)`: "emit `CardRemoved(current_card)`, then clear `current_card` and `last_valid_read_at`". -/
def SourceState.onTick (hbInterval now : Time) (m : SourceState) : SourceState :=
  match m.lastValidReadAt, m.currentCard with
  | some t0, some rec =>
    if 0 < hbInterval ∧ hbInterval < satSub now t0 then
      { m with currentCard := none, lastValidReadAt := none, out := m.out ++ [.removed rec] }
    else m
  | some _, none => m
  | none, _ => m

/-- One operation of the source; the reserved command is none of the source's (60_exceptions.md R201). -/
def SourceState.operation (hbInterval now : Time) (i : Instr) (m : SourceState) : SourceState :=
  match i with
  | .feedStart => m.marker now
  | .feedEnd => m.marker now
  | .feedHex n _ => { m with buffer := m.buffer ++ [n] }
  | .feedGarbage b => { m with buffer := [], out := m.out ++ [.garbage b] }
  | .tick _ => m.onTick hbInterval now
  | .sessionReset _ => { m with currentCard := none, lastValidReadAt := none }
  | .reserved _ => m

end Sys2Proof.Machine
end

