-- ==== Sys2Proof/Machine/Stream.lean ====
section
/-! DEFINITION. Sequences of commands: the stream syntax and pseudo-commands of spec/30_encoding.md R94, R95, and
running a sequence on the block alone, one command after another in the host's order (20_memory.md R69). -/

namespace Sys2Proof.Machine

/-- A command with its time. -/
structure Command where
  word : CmdWord
  now : Time
  deriving DecidableEq, Repr

/-- The stream syntax and the pseudo-commands (30_encoding.md R94, R95). SESSION_RESET and RESERVED ignore the
time, so their forms carry none; the 0 that stands on `CMD_NOW` for them is a DESIGN CHOICE (log 32). -/
inductive StreamItem where
  | byte (b : Byte) (t : Time)
  | stx (t : Time)
  | etx (t : Time)
  /-- One BYTE per character, all at one time. -/
  | text (cs : List Byte) (t : Time)
  /-- One BYTE per character, the k-th at time `t + k`; k counts from 0, a DESIGN CHOICE (log 31). -/
  | textRising (cs : List Byte) (t : Time)
  | tick (t : Time)
  | reset
  | rsvd
  /-- `PKT "d0…d11" @t`: the digits' bytes between markers. -/
  | pkt (digits : List Byte) (t : Time)
  /-- `PKT(type, value) @t`: the correct packet, in upper case. -/
  | pktFor (type : Byte) (value : BitVec 32) (t : Time)
  /-- `ITER(b, t1, t2)`, or `ITER(-, t2)` where no byte came. -/
  | iter (b : Option Byte) (t1 t2 : Time)
  deriving DecidableEq, Repr

/-- A BYTE command (30_encoding.md R94). -/
def byteCommand (t : Time) (b : Byte) : Command := { word := commandWord 0 b, now := t }

/-- The characters of a rising text, the k-th at time `t + k`. DESIGN CHOICE (log 31): the spec does not say where k
starts, and the model counts from 0, so that the first character comes at `t`. -/
def risingCommands (t : Time) : List Byte → List Command
  | [] => []
  | b :: rest => byteCommand t b :: risingCommands (t + 1) rest

/-- The commands an item stands for (30_encoding.md R94, R95). DESIGN CHOICE (log 32): `RESET` and `RSVD` put 0 on
`CMD_NOW`, to which the syntax gives no time. -/
def StreamItem.expand : StreamItem → List Command
  | .byte b t => [byteCommand t b]
  | .stx t => [byteCommand t Config.startMarker]
  | .etx t => [byteCommand t Config.endMarker]
  | .text cs t => cs.map (byteCommand t)
  | .textRising cs t => risingCommands t cs
  | .tick t => [{ word := commandWord 1 0, now := t }]
  | .reset => [{ word := commandWord 2 0, now := 0 }]
  | .rsvd => [{ word := commandWord 3 0, now := 0 }]
  | .pkt digits t => ([Config.startMarker] ++ digits ++ [Config.endMarker]).map (byteCommand t)
  | .pktFor type value t => (encodePacket type value (packetChecksum type value) .upper).map (byteCommand t)
  | .iter (some b) t1 t2 => [byteCommand t1 b, { word := commandWord 1 0, now := t2 }]
  | .iter none _ t2 => [{ word := commandWord 1 0, now := t2 }]

/-- One command on the block, at the parameter `HB_INTERVAL`: its word and time stand on the port and it runs. -/
def runCommand (hbInterval : Time) (c : Command) (s : State) : Host.Outcome State Fault Refusal :=
  execAt hbInterval (decode c.word) { s with cmdWord := c.word, cmdNow := c.now }

/-- Commands in order at one value of the parameter, stopping at the first fault or refusal. -/
def runCommands (hbInterval : Time) : List Command → State → Host.Outcome State Fault Refusal
  | [], s => .next s
  | c :: rest, s =>
    match runCommand hbInterval c s with
    | .next t => runCommands hbInterval rest t
    | .fault f => .fault f
    | .refused r => .refused r

end Sys2Proof.Machine
end

