-- ==== Sys2Proof/Safety.lean ====
section
/-! DEFINITION. The terms claims are stated in: the record a full buffer stands for, the invariants of reachable
states, equality up to what the spec leaves unspecified, the correspondence with the source's machine, and the
host's duties. -/

namespace Sys2Proof.Machine

/-! ## The record of a full buffer -/

/-- The record of 12 nibbles, written by concatenation as 42_decoder.md R136 and R138 print it; the decoder is
written by shifts, as R130 prints it. -/
def recordOf (v : Vector Nibble 12) : CardRecord :=
  { type := v[0] ++ v[1]
    value := v[2] ++ v[3] ++ v[4] ++ v[5] ++ v[6] ++ v[7] ++ v[8] ++ v[9]
    checksum := v[10] ++ v[11]
    isValid := (v[0] ++ v[1]) ^^^ (v[2] ++ v[3]) ^^^ (v[4] ++ v[5]) ^^^ (v[6] ++ v[7]) ^^^ (v[8] ++ v[9]) ==
      (v[10] ++ v[11]) }

/-- The record a packet's fields decode to (42_decoder.md R143). -/
def packetRecord (type : Byte) (value : BitVec 32) (checksum : Byte) : CardRecord :=
  { type := type, value := value, checksum := checksum, isValid := checksum == packetChecksum type value }

/-! ## Invariants -/

/-- The session invariant: the present bits agree, and a present card is valid (10_state.md R39). -/
abbrev State.SessionInv (s : State) : Prop :=
  s.csLastP = s.csCardP ∧ (s.csCardP = true → s.csCard.isValid = true)

/-- An event carries a record of the validity its kind says (43_session.md R153, R156, R161). -/
def Event.sound : Event → Bool
  | .inserted r => r.isValid
  | .removed r => r.isValid
  | .invalid r => !r.isValid
  | .garbage _ => true

/-- Every event of the history is sound. -/
abbrev State.HistorySound (s : State) : Prop := ∀ e ∈ s.ev, e.sound = true

/-- READ_ONE runs and its SESSION_RESET has been carried out. -/
abbrev State.ReadOneStarted (s : State) : Prop :=
  s.seq.loc.inReadOne = true ∧ (s.seq.loc.settingUp = true → s.cmdValid = false)

/-- While READ_ONE sets up, the only command that can be pending is a SESSION_RESET; until an insertion the session
of a started READ_ONE is empty; once there is a result a stop has been requested (44_poll_loop.md R187, R188, R189). -/
abbrev State.ReadOneInv (s : State) : Prop :=
  (s.seq.loc.settingUp = true → s.cmdValid = true → kindField s.cmdWord = 2) ∧
  (s.ReadOneStarted → s.seq.result = none → s.csCardP = false) ∧
  (s.seq.loc.inReadOne = true → s.seq.result ≠ none → s.seq.stop = true)

/-! ## Equality up to what is unspecified -/

/-- Two states agree on everything the spec gives a value: stale nibbles and the payloads of absent options may
differ (00_scope.md R18, 10_state.md R32, R34, 93 U2, U3). -/
abbrev State.SameSpecified (s t : State) : Prop :=
  s.faCnt = t.faCnt ∧ s.fragment = t.fragment ∧
  s.csCardP = t.csCardP ∧ (s.csCardP = true → s.csCard = t.csCard) ∧
  s.csLastP = t.csLastP ∧ (s.csLastP = true → s.csLastT = t.csLastT) ∧
  s.fltRsvd = t.fltRsvd ∧ s.ev = t.ev ∧
  s.cmdValid = t.cmdValid ∧ s.cmdWord = t.cmdWord ∧ s.cmdNow = t.cmdNow ∧
  s.evPort = t.evPort ∧ s.seq = t.seq

/-- Two states hold the same block: every element of 10_state.md R30 and the event port. -/
abbrev State.SameBlock (s t : State) : Prop :=
  s.faBuf = t.faBuf ∧ s.faCnt = t.faCnt ∧ s.csCardP = t.csCardP ∧ s.csCard = t.csCard ∧
  s.csLastP = t.csLastP ∧ s.csLastT = t.csLastT ∧ s.fltRsvd = t.fltRsvd ∧ s.ev = t.ev ∧ s.evPort = t.evPort

/-- The host's next action resets or constructs the block: the two requests that end one run and begin another. -/
def State.restartsBlock (s : State) : Bool :=
  !s.cmdValid && s.seq.loc == .idle &&
    match s.seq.calls with
    | .construct _ :: _ => true
    | .blockReset :: _ => true
    | .command _ _ :: _ => false
    | .runEvents :: _ => false
    | .readOne _ :: _ => false
    | .requestStop :: _ => false
    | .openTransport _ :: _ => false
    | .closeTransport :: _ => false
    | [] => false

/-! ## The correspondence with the source's machine -/

/-- The block's bounded buffer stands for the source's unbounded one (10_state.md R32, R33). -/
abbrev State.BufferOf (s : State) (buffer : List Nibble) : Prop :=
  (s.faCnt.val ≤ 12 → buffer = s.faBuf.toList.take s.faCnt.val) ∧ (s.faCnt.val = 13 → 12 < buffer.length)

/-- The block's state stands for the source's (10_state.md R32, R35, R40). -/
abbrev State.StandsFor (s : State) (m : SourceState) : Prop :=
  s.BufferOf m.buffer ∧
  m.currentCard = (if s.csCardP then some s.csCard else none) ∧
  m.lastValidReadAt = (if s.csLastP then some s.csLastT else none) ∧
  m.out = s.ev

/-! ## The host's duties -/

/-- `CMD_NOW` does not decrease from one BYTE or TICK command to the next (70_reset_and_hazards.md R244). -/
abbrev HostDuty.monotone (cs : List Command) : Prop :=
  ((cs.filter fun c => decide (kindField c.word < 2)).map Command.now).Pairwise (· ≤ ·)

/-- Every time the commands bring is below `2^TS_W` (70_reset_and_hazards.md R245). The duty's other half, for the
interval, the clock and READ_ONE's deadline, is `State.suppliedTimesFit`. -/
abbrev HostDuty.timesFit (tsW : Nat) (cs : List Command) : Prop := ∀ c ∈ cs, c.now < 2 ^ tsW

end Sys2Proof.Machine
end

