-- ==== Sys2Proof/Certificates/Slice0/Obligations.lean ====
section
/-! DEFINITION. The statements for the provers. Each docstring names the rules of spec/ it rests on. -/

open Sys2Proof Sys2Proof.Machine

/-! ## Encoding -/

/-- Words written out from 30_encoding.md R89 and 95_test_vectors.md section 2.1 decode as listed there. -/
def Obligations.SampleWordsDecode : Prop :=
  decode 0b0000000010 = .feedStart ∧ decode 0b0000000011 = .feedEnd ∧
  decode 0b0000110110 = .feedHex 6 .upper ∧ decode 0b0001000110 = .feedHex 15 .upper ∧
  decode 0b0001100001 = .feedHex 10 .lower ∧ decode 0b0000001101 = .feedGarbage 0x0D ∧
  decode 0b0011111111 = .feedGarbage 0xFF ∧ decode 0b0101000010 = .tick 0x42 ∧
  decode 0b1000000000 = .sessionReset 0 ∧ decode 0b1110100101 = .reserved 0xA5

/-- Every word matches exactly one row of the printed command map, and decodes to that row's operation
(30_encoding.md R89, R90). -/
def Obligations.EveryWordMatchesOneRow : Prop :=
  ∀ w : CmdWord, ∃ r, commandRows.filter (fun row => row.matches w) = [r] ∧ r.opcode = (decode w).opcode

/-- Decoding the word of a well-formed instruction gives it back, every operand at every value. -/
def Obligations.DecodeOfEncode : Prop := ∀ i : Instr, WellFormed i → decode (encode i) = i

/-- Every word decodes to a well-formed instruction whose word it is: no bit is dropped (30_encoding.md R87, R90). -/
def Obligations.EncodeOfDecode : Prop := ∀ w : CmdWord, WellFormed (decode w) ∧ encode (decode w) = w

/-- The byte classes are the ranges of 30_encoding.md R82, each selects its operation in the decoder of a BYTE word,
with the operand the byte carries, and every byte of 0x80 and above is GARBAGE (R85). -/
def Obligations.ByteClassesPartition : Prop :=
  ∀ b : Byte,
    (classify b = .start ↔ b = 0x02) ∧ (classify b = .stop ↔ b = 0x03) ∧
    (classify b = .hex ↔ (0x30 ≤ b ∧ b ≤ 0x39) ∨ (0x41 ≤ b ∧ b ≤ 0x46) ∨ (0x61 ≤ b ∧ b ≤ 0x66)) ∧
    (classify b = .garbage ↔ isGarbageByte b = true) ∧ (0x80 ≤ b → classify b = .garbage) ∧
    (classify b = .start ↔ decode (commandWord 0 b) = .feedStart) ∧
    (classify b = .stop ↔ decode (commandWord 0 b) = .feedEnd) ∧
    (classify b = .hex ↔ (decode (commandWord 0 b)).opcode = .feedHex) ∧
    (∀ n, hexValue b = some n → decode (commandWord 0 b) = .feedHex n (hexCase b)) ∧
    (classify b = .garbage ↔ decode (commandWord 0 b) = .feedGarbage b)

/-- `hex_value` inverts `hexdig` in either case, and is defined on HEX bytes only (30_encoding.md R86, R93). -/
def Obligations.HexValueInvertsHexDigit : Prop :=
  (∀ (n : Nibble) (c : LetterCase), hexValue (hexDigit n c) = some n) ∧
  ∀ b : Byte, (hexValue b).isSome = true ↔ classify b = .hex

/-- A record's 49 bits hold its fields where 10_state.md R36 puts them, and two records are equal exactly when
their bits are (R37). -/
def Obligations.RecordLayout : Prop :=
  ∀ r q : CardRecord,
    r.bits.extractLsb' 41 8 = r.type ∧ r.bits.extractLsb' 9 32 = r.value ∧ r.bits.extractLsb' 1 8 = r.checksum ∧
    r.bits.getLsbD 0 = r.isValid ∧ recordOfBits r.bits = r ∧ (r.bits = q.bits ↔ r = q)

/-- The event port's wires for each kind and for no event (10_state.md R41); kinds 101 to 111 never appear. -/
def Obligations.EventPortEncoding : Prop :=
  ∀ (s : State) (r : CardRecord) (b : Byte),
    { s with evPort := none }.eventPort = ⟨false, 0b000, 0⟩ ∧
    { s with evPort := some (.inserted r) }.eventPort = ⟨true, 0b001, r.bits⟩ ∧
    { s with evPort := some (.removed r) }.eventPort = ⟨true, 0b010, r.bits⟩ ∧
    { s with evPort := some (.invalid r) }.eventPort = ⟨true, 0b011, r.bits⟩ ∧
    { s with evPort := some (.garbage b) }.eventPort = ⟨true, 0b100, b.setWidth 49⟩ ∧
    s.eventPort.kind < 0b101

/-! ## The step -/

/-- With a command presented, a step is exec of the decoded command, after which `CMD_VALID` falls and the host
takes the event (00_scope.md R21, 44_poll_loop.md R180); and so it is at every value of the parameter `HB_INTERVAL`
(00_scope.md R11). -/
def Obligations.StepRunsDecodedCommand : Prop :=
  ∀ (s : State) (i : Instr), s.cmdValid = true → decode s.cmdWord = i →
    WellFormed i ∧
    (∀ t, exec i s = .next t → step s = .next { t with cmdValid := false, seq := t.seq.take t.evPort }) ∧
    (∀ f, exec i s = .fault f → step s = .fault f) ∧ (∀ r, exec i s = .refused r → step s = .refused r) ∧
    ∀ hb t, execAt hb i s = .next t →
      stepAt hb s = .next { t with cmdValid := false, seq := t.seq.take t.evPort }

/-- A word the table decoder reads is what the next step runs once it stands on the port: that step is exec of its
instruction, completed, and standing there changes nothing else. That a presented word is how an instruction is fetched
is the model's convention (logs 7 and 28), and completion in the same step its reading (log 16). -/
def Obligations.FetchWordIsRunNext : Prop :=
  ∀ (s : State) (nbits w : Nat) (i : Instr), decodeTableWord nbits w = some i →
    (s.withFetchWord nbits w).cmdValid = true ∧ decode (s.withFetchWord nbits w).cmdWord = i ∧
    { s.withFetchWord nbits w with cmdValid := s.cmdValid, cmdWord := s.cmdWord } = s ∧
    ∃ t, exec i (s.withFetchWord nbits w) = .next t ∧ step (s.withFetchWord nbits w) = .next t.completeCommand

/-- Every command completes from every state: there is no illegal word and the block never halts (30_encoding.md
R90). -/
def Obligations.EveryCommandCompletes : Prop := ∀ (i : Instr) (s : State), ∃ t, exec i s = .next t

/-- A command emits at most one event, which joins the history's end and stands on the port (10_state.md R40, R41). -/
def Obligations.AtMostOneEventPerCommand : Prop :=
  ∀ (i : Instr) (s t : State), exec i s = .next t →
    (t.ev = s.ev ∧ t.evPort = none) ∨ ∃ e, t.ev = s.ev ++ [e] ∧ t.evPort = some e

/-- No command writes the command port or the host's state, at any value of `HB_INTERVAL` (10_state.md R30, R44, R48).
`HB_INTERVAL` is an argument of the step and not state: exec and step are the relation at the interface's open value,
no command but TICK depends on it, no step but a TICK's or a construction's does, and a run keeps to it, for a step that
goes on through a construction has sampled it (00_scope.md R11, R13, 70_reset_and_hazards.md R231, R238). That the
interface's value is an open constant is the model's choice (log 4), and that a construction is a request of the idle
host is its choice too (log 21). -/
def Obligations.CommandsLeaveHostAndConfigAlone : Prop :=
  (∀ (hb : Time) (i : Instr) (s t : State), execAt hb i s = .next t →
    t.cmdValid = s.cmdValid ∧ t.cmdWord = s.cmdWord ∧ t.cmdNow = s.cmdNow ∧ t.seq = s.seq) ∧
  (∀ (i : Instr) (s : State), exec i s = execAt Config.hbInterval i s) ∧
  (∀ s : State, step s = stepAt Config.hbInterval s) ∧
  (∀ (hb hb' : Time) (i : Instr) (s : State), i.opcode ≠ .tick → execAt hb i s = execAt hb' i s) ∧
  (∀ (hb hb' : Time) (s : State),
    (s.cmdValid = true → (decode s.cmdWord).opcode ≠ .tick) →
    (s.cmdValid = true ∨ s.seq.loc ≠ .idle ∨ ∀ v rest, s.seq.calls ≠ .construct v :: rest) →
    stepAt hb s = stepAt hb' s) ∧
  ∀ (p : Parameters) (s t : State), stepWith p s = .next t →
    stepAt p.hbInterval s = .next t ∧
    ∀ v rest, s.cmdValid = false → s.seq.loc = .idle → s.seq.calls = .construct v :: rest → v = p.hbInterval

/-! ## The FrameAssembler -/

/-- A marker with an empty buffer changes nothing and emits nothing; FEED_START and FEED_END (41_framer.md R103,
R104, R105). -/
def Obligations.MarkerOnEmptyBuffer : Prop :=
  ∀ (i : Instr) (s : State), i = .feedStart ∨ i = .feedEnd → s.faCnt = 0 →
    exec i s = .next { s with evPort := none }

/-- FEED_END behaves as FEED_START (41_framer.md R104). -/
def Obligations.FeedEndEqualsFeedStart : Prop := ∀ s : State, exec .feedEnd s = exec .feedStart s

/-- A marker with any number of nibbles but 0 and 12 empties the buffer and does nothing else, 13 standing for
every longer fragment (41_framer.md R115, 42_decoder.md R131, 43_session.md R152). -/
def Obligations.MarkerDropsMalformedFragment : Prop :=
  ∀ (i : Instr) (s : State), i = .feedStart ∨ i = .feedEnd → s.faCnt ≠ 0 → s.faCnt ≠ 12 →
    exec i s = .next { s with faCnt := 0, evPort := none }

/-- A marker on 12 nibbles with a wrong checksum always emits INVALID of the whole record and writes no session
register (43_session.md R153). -/
def Obligations.MarkerReportsInvalidRecord : Prop :=
  ∀ (i : Instr) (s : State), i = .feedStart ∨ i = .feedEnd → s.faCnt = 12 → (recordOf s.faBuf).isValid = false →
    exec i s = .next { s with
      faCnt := 0, ev := s.ev ++ [.invalid (recordOf s.faBuf)], evPort := some (.invalid (recordOf s.faBuf)) }

/-- A marker on 12 nibbles with a right checksum that are not the present card makes them the card, emits INSERTED,
and emits no REMOVED for a card it replaces (43_session.md R156, R158). -/
def Obligations.MarkerInsertsNewCard : Prop :=
  ∀ (i : Instr) (s : State), i = .feedStart ∨ i = .feedEnd → s.faCnt = 12 → (recordOf s.faBuf).isValid = true →
    (s.csCardP = true → s.csCard ≠ recordOf s.faBuf) →
    exec i s = .next { s with
      faCnt := 0, csLastP := true, csLastT := s.cmdNow, csCardP := true, csCard := recordOf s.faBuf,
      ev := s.ev ++ [.inserted (recordOf s.faBuf)], evPort := some (.inserted (recordOf s.faBuf)) }

/-- A marker on 12 nibbles that are the present card only refreshes the heartbeat: no event (43_session.md R157). -/
def Obligations.MarkerSuppressesRepeat : Prop :=
  ∀ (i : Instr) (s : State), i = .feedStart ∨ i = .feedEnd → s.faCnt = 12 → (recordOf s.faBuf).isValid = true →
    s.csCardP = true → s.csCard = recordOf s.faBuf →
    exec i s = .next { s with faCnt := 0, csLastP := true, csLastT := s.cmdNow, evPort := none }

/-- Every valid read refreshes the heartbeat, whether or not it is the present card and whether or not the
heartbeat is enabled (43_session.md R155). -/
def Obligations.ValidReadRefreshesHeartbeat : Prop :=
  ∀ (i : Instr) (s : State), i = .feedStart ∨ i = .feedEnd → s.faCnt = 12 → (recordOf s.faBuf).isValid = true →
    ∃ t, exec i s = .next t ∧ t.csLastP = true ∧ t.csLastT = s.cmdNow ∧ t.csCardP = true ∧
      t.csCard = recordOf s.faBuf

/-- FEED_HEX below 12 nibbles writes the nibble at the count and counts it; nothing else changes, and the fragment
is the old one with the nibble at its end, in either letter case (41_framer.md R108, R109, R111). -/
def Obligations.FeedHexAppends : Prop :=
  ∀ (n : Nibble) (c : LetterCase) (s : State) (h : s.faCnt.val < 12),
    exec (.feedHex n c) s = .next { s with
      faBuf := s.faBuf.set s.faCnt.val n h, faCnt := ⟨s.faCnt.val + 1, by omega⟩, evPort := none } ∧
    ∀ t, exec (.feedHex n c) s = .next t →
      t.fragment = .exact (s.faBuf.toList.take s.faCnt.val ++ [n]) ∧ (s.faCnt = 0 → t.fragment = .exact [n])

/-- FEED_HEX at 12 or 13 sets the count to 13 and writes no buffer element (41_framer.md R110). -/
def Obligations.FeedHexSaturates : Prop :=
  ∀ (n : Nibble) (c : LetterCase) (s : State), 12 ≤ s.faCnt.val →
    exec (.feedHex n c) s = .next { s with faCnt := 13, evPort := none }

/-- FEED_GARBAGE empties the buffer and emits GARBAGE of the byte, whether or not the buffer was empty; nothing
else changes (41_framer.md R112, R113). -/
def Obligations.FeedGarbageResyncs : Prop :=
  ∀ (b : Byte) (s : State),
    exec (.feedGarbage b) s = .next { s with
      faCnt := 0, ev := s.ev ++ [.garbage b], evPort := some (.garbage b) } ∧
    (∀ t, exec (.feedGarbage b) s = .next t → t.eventPort = ⟨true, 0b100, b.setWidth 49⟩)

/-- Who may write what: the session registers change only in markers, TICK and SESSION_RESET, the fragment only in
BYTE operations, and no operation but a marker reads a card: it adds no INSERTED and no INVALID (10_state.md R31,
41_framer.md R107, 43_session.md R171). -/
def Obligations.RegistersHaveOneOwner : Prop :=
  ∀ (i : Instr) (s t : State), exec i s = .next t →
    ((i.opcode = .feedHex ∨ i.opcode = .feedGarbage ∨ i.opcode = .reserved) →
      t.csCardP = s.csCardP ∧ t.csCard = s.csCard ∧ t.csLastP = s.csLastP ∧ t.csLastT = s.csLastT) ∧
    ((i.opcode = .tick ∨ i.opcode = .sessionReset ∨ i.opcode = .reserved) →
      t.faBuf = s.faBuf ∧ t.faCnt = s.faCnt) ∧
    (∀ r, i.opcode ≠ .feedStart → i.opcode ≠ .feedEnd →
      t.evPort ≠ some (.inserted r) ∧ t.evPort ≠ some (.invalid r))

/-! ## The FragmentDecoder -/

/-- A fragment of any length but 12, and every overlong one, decodes to no record (42_decoder.md R131). -/
def Obligations.OtherLengthsDecodeToNothing : Prop :=
  decodeFragment .overlong = none ∧ ∀ f : List Nibble, f.length ≠ 12 → decodeFragment (.exact f) = none

/-- DECODE of 12 nibbles: the fields in big-endian order, validity the comparison of the two checksums, and the
49 bits of the record the nibbles in arrival order with the validity last (42_decoder.md R132 to R138). -/
def Obligations.DecodeOfTwelveNibbles : Prop :=
  ∀ v : Vector Nibble 12,
    decodeFragment (.exact v.toList) = some (recordOf v) ∧
    (recordOf v).isValid = ((recordOf v).checksum == packetChecksum (recordOf v).type (recordOf v).value) ∧
    (recordOf v).bits =
      v[0] ++ v[1] ++ v[2] ++ v[3] ++ v[4] ++ v[5] ++ v[6] ++ v[7] ++ v[8] ++ v[9] ++ v[10] ++ v[11] ++
        BitVec.ofBool (recordOf v).isValid

/-- DECODE is injective on 12-nibble fragments (42_decoder.md R141). -/
def Obligations.DecodeIsInjective : Prop :=
  ∀ f g : List Nibble, f.length = 12 → g.length = 12 → (decodeNibbles f = decodeNibbles g ↔ f = g)

/-- A packet whose checksum is correctly computed decodes valid, with its type and value (42_decoder.md R142). -/
def Obligations.CorrectChecksumDecodesValid : Prop :=
  ∀ (type : Byte) (value : BitVec 32),
    decodeNibbles (wireNibbles type value (packetChecksum type value)) =
      some { type := type, value := value, checksum := packetChecksum type value, isValid := true }

/-- Changing exactly one nibble of a fragment that decodes valid makes it decode invalid (42_decoder.md R144). -/
def Obligations.SingleNibbleErrorDetected : Prop :=
  ∀ (v : Vector Nibble 12) (k : Fin 12) (n : Nibble) (r : CardRecord),
    decodeFragment (.exact v.toList) = some r → r.isValid = true → v[k] ≠ n →
    ∃ q, decodeFragment (.exact (v.set k n).toList) = some q ∧ q.isValid = false

/-- A whole packet, in either letter case and after whatever was in the buffer, acts as its START marker followed by
SESSION_FRAGMENT of the record it encodes: the round trip of 42_decoder.md R143 through the framer (30_encoding.md
R92, R93). -/
def Obligations.PacketDeliversItsRecord : Prop :=
  ∀ (hb : Time) (s : State) (type : Byte) (value : BitVec 32) (checksum : Byte) (c : LetterCase) (now : Time),
    ∃ u t,
      runCommand hb (byteCommand now Config.startMarker) s = .next u ∧
      runCommands hb ((encodePacket type value checksum c).map (byteCommand now)) s = .next t ∧
      t.faCnt = 0 ∧ t.fltRsvd = u.fltRsvd ∧ t.seq = u.seq ∧
      t.csCardP = (sessionFragment (some (packetRecord type value checksum)) now u.beginCommand).csCardP ∧
      t.csCard = (sessionFragment (some (packetRecord type value checksum)) now u.beginCommand).csCard ∧
      t.csLastP = (sessionFragment (some (packetRecord type value checksum)) now u.beginCommand).csLastP ∧
      t.csLastT = (sessionFragment (some (packetRecord type value checksum)) now u.beginCommand).csLastT ∧
      t.ev = (sessionFragment (some (packetRecord type value checksum)) now u.beginCommand).ev ∧
      t.evPort = (sessionFragment (some (packetRecord type value checksum)) now u.beginCommand).evPort

/-! ## The CardSession -/

/-- A word that matches 0x100 under mask 0x300 is a TICK, and TICK removes the card exactly when the heartbeat is
enabled, a last valid read is held, and more than the interval has passed since it; otherwise it does nothing
(43_session.md R160, R161, R162, R163, R164). First for `exec`, at the interface's open `HB_INTERVAL` (log 4), then for
every value of it. That a removal leaves the payloads `CS_CARD` and `CS_LAST_T` as they were is the model's choice
(log 8): the spec leaves them unspecified then. -/
def Obligations.TickRemovesLapsedCard : Prop :=
  (∀ w : CmdWord, w &&& 0x300 = 0x100 → ∃ ignored, decode w = .tick ignored) ∧
  (∀ (ignored : Byte) (s : State),
    exec (.tick ignored) s = .next
      (if 0 < Config.hbInterval ∧ s.csLastP = true ∧ s.csLastT + Config.hbInterval < s.cmdNow then
        { s with
          csCardP := false, csLastP := false, ev := s.ev ++ [.removed s.csCard], evPort := some (.removed s.csCard) }
      else { s with evPort := none })) ∧
  ∀ (hb : Time) (ignored : Byte) (s : State),
    (0 < hb → s.csLastP = true → s.csLastT + hb < s.cmdNow →
      execAt hb (.tick ignored) s = .next { s with
        csCardP := false, csLastP := false, ev := s.ev ++ [.removed s.csCard], evPort := some (.removed s.csCard) }) ∧
    (hb = 0 ∨ s.csLastP = false ∨ s.cmdNow ≤ s.csLastT + hb →
      execAt hb (.tick ignored) s = .next { s with evPort := none })

/-- A second TICK at the same time, or at any later time once a removal has fired, emits nothing, whatever
`HB_INTERVAL` is (20_memory.md R67, 43_session.md R165). -/
def Obligations.RemovalFiresOnce : Prop :=
  ∀ (hb : Time) (ignored again : Byte) (s t : State) (later : Time), execAt hb (.tick ignored) s = .next t →
    execAt hb (.tick again) t = .next { t with evPort := none } ∧
    (t.evPort ≠ none →
      execAt hb (.tick again) { t with cmdNow := later } = .next { t with cmdNow := later, evPort := none })

/-- Right after a TICK with the heartbeat enabled, a card is present exactly when one was held whose last valid read
is no more than the interval ago (43_session.md R166). -/
def Obligations.PresenceExactAfterTick : Prop :=
  ∀ (hb : Time) (ignored : Byte) (s t : State), s.SessionInv → 0 < hb → execAt hb (.tick ignored) s = .next t →
    (t.csCardP = true ↔ s.csLastP = true ∧ s.cmdNow ≤ s.csLastT + hb)

/-- The heartbeat invariant: a held card and then TICKs alone, at any times: exactly one REMOVED of it once some TICK
comes more than the interval after its last valid read, and none before (43_session.md R165, R166). -/
def Obligations.LapseRemovesExactlyOnce : Prop :=
  ∀ (hb : Time) (s : State) (times : List Time), s.SessionInv → s.csCardP = true → 0 < hb →
    ∃ t, runCommands hb (times.map fun now => { word := commandWord 1 0, now := now }) s = .next t ∧
      ((∃ now ∈ times, s.csLastT + hb < now) →
        t.ev = s.ev ++ [.removed s.csCard] ∧ t.csCardP = false ∧ t.csLastP = false) ∧
      ((∀ now ∈ times, now ≤ s.csLastT + hb) →
        t.ev = s.ev ∧ t.csCardP = true ∧ t.csLastP = true ∧ t.csCard = s.csCard)

/-- While the host keeps its clock monotone, the last valid read is never later than the next BYTE or TICK, so the
elapsed time of 43_session.md R163 never saturates (70_reset_and_hazards.md R244). -/
def Obligations.MonotoneTimeNeverSaturates : Prop :=
  ∀ (hb : Time) (before : List Command) (c : Command) (s t : State),
    HostDuty.monotone (before ++ [c]) → kindField c.word < 2 →
    (∀ d ∈ before ++ [c], kindField d.word < 2 → s.csLastT ≤ d.now) →
    runCommands hb before s = .next t → t.csLastT ≤ c.now

/-- While the host keeps every time below `2^TS_W`, `CS_LAST_T` fits its register, and the step with `TS_W` as an
argument goes on exactly as the step without it does; it never goes on to a time that does not fit, of the block's or of the
host's, READ_ONE's deadline among them: such a run is refused (00_scope.md R19, 70_reset_and_hazards.md R245; log 14). -/
def Obligations.LastReadFitsRegister : Prop :=
  (∀ (hb : Time) (tsW : Nat) (cs : List Command) (s t : State), HostDuty.timesFit tsW cs → s.csLastT < 2 ^ tsW →
    runCommands hb cs s = .next t → t.csLastT < 2 ^ tsW) ∧
  ∀ (p : Parameters) (s t : State), stepAt p.hbInterval s = .next t →
    (s.csLastT < 2 ^ p.tsW → t.suppliedTimesFit p = true → stepWith p s = .next t) ∧
    (p.hbInterval < 2 ^ p.tsW ∧ t.cmdNow < 2 ^ p.tsW ∧ t.seq.clock < 2 ^ p.tsW ∧ t.csLastT < 2 ^ p.tsW ∧
        (∀ d, t.seq.deadline = some d → d < 2 ^ p.tsW) ∨
      stepWith p s = .refused .timeOutsideRegister)

/-- A word that matches 0x200 under mask 0x300 is a SESSION_RESET, and SESSION_RESET clears both present bits, emits
nothing and leaves the framer and everything else alone; twice is once (43_session.md R170, R171, R172). That the
payloads `CS_CARD` and `CS_LAST_T` stay as they were is the model's choice (log 8): the spec leaves them unspecified. -/
def Obligations.SessionResetEmptiesSession : Prop :=
  (∀ w : CmdWord, w &&& 0x300 = 0x200 → ∃ ignored, decode w = .sessionReset ignored) ∧
  ∀ (ignored again : Byte) (s : State),
    exec (.sessionReset ignored) s = .next { s with csCardP := false, csLastP := false, evPort := none } ∧
    ∀ t, exec (.sessionReset ignored) s = .next t → exec (.sessionReset again) t = .next t

/-- After a SESSION_RESET, a fragment in progress survives, and the first valid read of any card emits INSERTED
(43_session.md R171, R172). -/
def Obligations.FirstReadAfterSessionResetInserts : Prop :=
  ∀ (i : Instr) (ignored : Byte) (s t : State), i = .feedStart ∨ i = .feedEnd →
    exec (.sessionReset ignored) s = .next t → s.faCnt = 12 → (recordOf s.faBuf).isValid = true →
    ∃ u, exec i t = .next u ∧ u.evPort = some (.inserted (recordOf s.faBuf)) ∧ u.csCard = recordOf s.faBuf

/-! ## The reserved command and the conditions -/

/-- A word that matches 0x300 under mask 0x300 is RESERVED, and RESERVED sets `FLT_RSVD` and changes nothing else,
with no event (60_exceptions.md R200, R201). -/
def Obligations.ReservedSetsFaultBit : Prop :=
  (∀ w : CmdWord, w &&& 0x300 = 0x300 → ∃ ignored, decode w = .reserved ignored) ∧
  ∀ (ignored : Byte) (s : State), exec (.reserved ignored) s = .next { s with fltRsvd := true, evPort := none }

/-- `FLT_RSVD` stops nothing: every command does the same with the bit set or clear; no command but RESERVED writes
it, no command and no host action clears it, and a block reset does (60_exceptions.md R202, 10_state.md R42). -/
def Obligations.FaultBitIsStickyAndHarmless : Prop :=
  (∀ (i : Instr) (s t : State) (b : Bool), exec i s = .next t →
    exec i { s with fltRsvd := b } = .next { t with fltRsvd := b || decide (i.opcode = .reserved) }) ∧
  (∀ s t : State, step s = .next t → s.restartsBlock = false → s.fltRsvd = true → t.fltRsvd = true) ∧
  ∀ s : State, s.blockReset.fltRsvd = false

/-- Each condition a command meets has the effect 60_exceptions.md R203 gives it, and only RESERVED_COMMAND writes
the fault bit. -/
def Obligations.ConditionsHaveTheirEffects : Prop :=
  ∀ (i : Instr) (s t : State), exec i s = .next t →
    (∀ b, conditionOf i s = some (.resync b) →
      t.faCnt = 0 ∧ t.evPort = some (.garbage b) ∧ t.fltRsvd = s.fltRsvd) ∧
    (conditionOf i s = some .malformedFragment → t.faCnt = 0 ∧ t.evPort = none ∧ t.fltRsvd = s.fltRsvd) ∧
    (∀ rec, conditionOf i s = some (.checksumMismatch rec) →
      t.faCnt = 0 ∧ t.evPort = some (.invalid rec) ∧ rec.isValid = false ∧ t.csCardP = s.csCardP ∧
      t.csCard = s.csCard ∧ t.csLastP = s.csLastP ∧ t.csLastT = s.csLastT ∧ t.fltRsvd = s.fltRsvd) ∧
    (∀ w, conditionOf i s = some (.reservedCommand w) → t.fltRsvd = true ∧ t.evPort = none ∧ decode w = i) ∧
    conditionOf i s ≠ some .transportUnavailable

/-! ## Reset and construction -/

/-- After a block reset, and after the step that carries out the idle host's request for one, the elements hold what
10_state.md R49 gives them and no event stands on the port (70_reset_and_hazards.md R230, R232). That the
command port and the host (but for the request it has taken) stay as they were, and that the host asks for it so, is the
model's choice (log 21). -/
def Obligations.BlockResetValues : Prop :=
  (State.reset.faCnt = 0 ∧ State.reset.csCardP = false ∧ State.reset.csLastP = false ∧
    State.reset.fltRsvd = false ∧ State.reset.ev = [] ∧ State.reset.eventPort.valid = false ∧
    State.reset.cmdValid = false) ∧
  (∀ s : State,
    s.blockReset.faCnt = 0 ∧ s.blockReset.csCardP = false ∧ s.blockReset.csLastP = false ∧
    s.blockReset.fltRsvd = false ∧ s.blockReset.ev = [] ∧ s.blockReset.eventPort.valid = false ∧
    s.blockReset.cmdValid = s.cmdValid ∧ s.blockReset.cmdWord = s.cmdWord ∧ s.blockReset.cmdNow = s.cmdNow ∧
    s.blockReset.seq = s.seq) ∧
  ∀ (s : State) (rest : List HostCall),
    s.cmdValid = false → s.seq.loc = .idle → s.seq.calls = .blockReset :: rest →
    ∃ t, step s = .next t ∧ t.faCnt = 0 ∧ t.csCardP = false ∧ t.csLastP = false ∧ t.fltRsvd = false ∧ t.ev = [] ∧
      t.evPort = none ∧ t.cmdValid = false ∧ t.cmdWord = s.cmdWord ∧
      t.cmdNow = s.cmdNow ∧ t.seq = { s.seq with calls := rest }

/-- Construction checks the transport first: with none to use it ends in TRANSPORT_UNAVAILABLE and no state; else
it samples the interval and resets the block, where what it samples is the run's `HB_INTERVAL`, and is refused by name
where the host presents another (60_exceptions.md R205, 70_reset_and_hazards.md R231, R238). So at every value of
`HB_INTERVAL`, and for the interface's step at its open value (log 4). The last two clauses
are the model's choice (log 30): that opening and `close()` (60_exceptions.md R215) are requests of the idle host, leave
the transport as the clauses say, and touch nothing else. That a construction is such a request is its choice too
(log 21). -/
def Obligations.ConstructionNeedsTransport : Prop :=
  ∀ (s : State) (rest : List HostCall), s.cmdValid = false → s.seq.loc = .idle →
    (∀ hb v, s.seq.calls = .construct v :: rest →
      (s.seq.transport = .available → v = hb →
        ∃ t, stepAt hb s = .next t ∧ t.faCnt = 0 ∧ t.csCardP = false ∧ t.csLastP = false ∧
          t.fltRsvd = false ∧ t.ev = [] ∧ t.evPort = none) ∧
      (s.seq.transport = .available → v ≠ hb → stepAt hb s = .refused .intervalChanged) ∧
      (s.seq.transport ≠ .available → stepAt hb s = .fault .transportUnavailable)) ∧
    (s.seq.calls = .construct Config.hbInterval :: rest → s.seq.transport = .available →
      ∃ t, step s = .next t ∧ t.faCnt = 0 ∧ t.csCardP = false ∧ t.csLastP = false ∧
        t.fltRsvd = false ∧ t.ev = [] ∧ t.evPort = none) ∧
    (∀ succeeds, s.seq.calls = .openTransport succeeds :: rest →
      step s = .next { s with
        seq := { s.seq with calls := rest, transport := if succeeds then .available else .unavailable } }) ∧
    (s.seq.calls = .closeTransport :: rest →
      step s = .next { s with seq := { s.seq with calls := rest, transport := .closed } })

/-! ## Whole-machine rules -/

/-- The session invariant holds after a block reset and every step keeps it (10_state.md R39). -/
def Obligations.SessionInvKeptByEveryStep : Prop :=
  (∀ s : State, s.blockReset.SessionInv) ∧
  ∀ s t : State, s.SessionInv → step s = .next t → t.SessionInv

/-- The invariants of this file hold at reset. -/
def Obligations.ResetMeetsInvariants : Prop :=
  State.reset.SessionInv ∧ State.reset.HistorySound ∧ State.reset.ReadOneInv

/-- Every step keeps the history sound: INSERTED and REMOVED carry valid records, INVALID invalid ones
(43_session.md R153, R156, R161). -/
def Obligations.HistoryStaysSound : Prop :=
  ∀ s t : State, s.SessionInv → s.HistorySound → step s = .next t → t.HistorySound

/-- The history only grows, by at most one event a step, unless the host resets or constructs the block
(10_state.md R40, 20_memory.md R70). -/
def Obligations.HistoryOnlyGrows : Prop :=
  ∀ s t : State, step s = .next t → s.restartsBlock = false →
    t.ev = s.ev ∨ ∃ e, t.ev = s.ev ++ [e] ∧ s.cmdValid = true

/-- Nothing the spec leaves unspecified can be seen: two states that differ only in stale nibbles and absent
payloads stay so under every command, with the same events (00_scope.md R18, 10_state.md R33, R34, R47). -/
def Obligations.UnspecifiedPayloadsNeverMatter : Prop :=
  ∀ (i : Instr) (s s' t : State), s.SessionInv → s.SameSpecified s' → exec i s = .next t →
    ∃ t', exec i s' = .next t' ∧ t.SameSpecified t'

/-- The bounded buffer and the present bits show exactly the source's behaviour: a block state that stands for a
source state still does after every command, with the same events, whatever `HB_INTERVAL` is (10_state.md R33). -/
def Obligations.BlockRefinesSource : Prop :=
  ∀ (i : Instr) (s : State) (m : SourceState), s.SessionInv → s.StandsFor m →
    (∃ t, exec i s = .next t ∧ t.StandsFor (m.operation Config.hbInterval s.cmdNow i)) ∧
    ∀ hb, ∃ t, execAt hb i s = .next t ∧ t.StandsFor (m.operation hb s.cmdNow i)

/-- A host action leaves the block as it is, unless it resets or constructs the block (10_state.md R30, R48,
60_exceptions.md R221). That it keeps the event port too is the model's reading of R40, R41 and R207 (log 9). -/
def Obligations.HostActionsLeaveBlockAlone : Prop :=
  ∀ s t : State, s.cmdValid = false → s.restartsBlock = false → step s = .next t → s.SameBlock t

/-! ## The host sequencer -/

/-- The clock never goes back, and a command a running mode issues with a time carries the latest reading
(44_poll_loop.md R180, R182, 70_reset_and_hazards.md R244). -/
def Obligations.ClockReadingsNeverDecrease : Prop :=
  ∀ s t : State, step s = .next t →
    s.seq.clock ≤ t.seq.clock ∧
    (s.cmdValid = false → t.cmdValid = true → s.seq.loc ≠ .idle → kindField t.cmdWord < 2 → t.cmdNow = t.seq.clock)

/-- One iteration: poll once, issue BYTE only if a byte came, always issue TICK, then run HOOK, then back to the
top (44_poll_loop.md R182). -/
def Obligations.IterationOrder : Prop :=
  ∀ (s : State) (m : HostMode), s.cmdValid = false →
    (s.seq.loc = .poll m →
      ∃ t, step s = .next t ∧ t.seq.loc = .tick m ∧
        (∀ b, s.seq.drawPoll.1 = some b → t.cmdValid = true ∧ t.cmdWord = commandWord 0 b) ∧
        (s.seq.drawPoll.1 = none → t.cmdValid = false)) ∧
    (s.seq.loc = .tick m →
      ∃ t, step s = .next t ∧ t.seq.loc = .hook m ∧ t.cmdValid = true ∧ t.cmdWord = 0x100) ∧
    (s.seq.loc = .hook m → ∃ t, step s = .next t ∧ t.seq.loc = .acts m s.seq.drawHook.1 ∧ t.cmdValid = false) ∧
    (s.seq.loc = .acts m [] → ∃ t, step s = .next t ∧ t.seq.loc = .top m ∧ t.cmdValid = false)

/-- The status ports, as anyone reads them and as a hook records them: each port shows its register, a payload port
beside the port of its present bit (10_state.md R44, 44_poll_loop.md R183). -/
def Obligations.StatusPortsMirrorRegisters : Prop :=
  (∀ s : State, s.status.stCardP = s.csCardP ∧ s.status.stCard = s.csCard ∧ s.status.stLastP = s.csLastP ∧
    s.status.stLastT = s.csLastT ∧ s.status.stFault = s.fltRsvd) ∧
  ∀ (s : State) (m : HostMode) (rest : List HookAction),
    s.cmdValid = false → s.seq.loc = .acts m (.readStatus :: rest) →
    ∃ t, step s = .next t ∧ t.seq.seen = some ⟨s.csCardP, s.csCard, s.csLastP, s.csLastT, s.fltRsvd⟩ ∧
      t.status = s.status

/-- What HOOK may do: read the status ports, request a stop, issue SESSION_RESET; anything else it issues is
refused by name (44_poll_loop.md R183). That `CMD_NOW` keeps its value under a hook's SESSION_RESET is the model's choice
(log 18), and that RESERVED is refused as BYTE and TICK are is its reading of R183's list (log 24). -/
def Obligations.HookPowers : Prop :=
  ∀ (s : State) (m : HostMode) (rest : List HookAction), s.cmdValid = false →
    (s.seq.loc = .acts m (.readStatus :: rest) →
      step s = .next { s with seq := { s.seq with seen := some s.status, loc := .acts m rest } }) ∧
    (s.seq.loc = .acts m (.requestStop :: rest) →
      step s = .next { s with seq := { s.seq with stop := true, loc := .acts m rest } }) ∧
    (∀ w, s.seq.loc = .acts m (.issue w :: rest) →
      ((∃ ignored, decode w = .sessionReset ignored) →
        step s = .next { s with cmdValid := true, cmdWord := w, seq := { s.seq with loc := .acts m rest } }) ∧
      ((∀ ignored, decode w ≠ .sessionReset ignored) → step s = .refused (.hookOutsideSpec w)))

/-- RUN_EVENTS clears the stop flag on entry, checks it at the top of each iteration, and on a stop ends with no
value (44_poll_loop.md R186, R193). -/
def Obligations.RunEventsStopsAtTop : Prop :=
  ∀ s : State, s.cmdValid = false →
    (∀ rest, s.seq.loc = .idle → s.seq.calls = .runEvents :: rest →
      ∃ t, step s = .next t ∧ t.seq.stop = false ∧ t.seq.loc = .top .events ∧ t.seq.calls = rest ∧
        t.seq.returns = s.seq.returns ∧ t.cmdValid = false) ∧
    (s.seq.loc = .top .events → s.seq.drawStop.stop = true →
      ∃ t, step s = .next t ∧ t.seq.loc = .idle ∧ t.seq.returns = s.seq.returns ++ [.events]) ∧
    (s.seq.loc = .top .events → s.seq.drawStop.stop = false →
      ∃ t, step s = .next t ∧ t.seq.loc = .poll .events ∧ t.seq.returns = s.seq.returns)

/-- READ_ONE's entry: flag and result cleared, SESSION_RESET issued and run, and then the deadline set to a clock
reading plus the timeout, or none (44_poll_loop.md R187). That the word's byte bits are 0 is the convention of
30_encoding.md R94, which the model takes for READ_ONE's own SESSION_RESET by choice (log 18). -/
def Obligations.ReadOneEntry : Prop :=
  ∀ (s : State) (timeout : Option Time) (rest : List HostCall),
    s.cmdValid = false → s.seq.loc = .idle → s.seq.calls = .readOne timeout :: rest →
    ∃ t u v,
      step s = .next t ∧ t.seq.stop = false ∧ t.seq.result = none ∧ t.cmdValid = true ∧ t.cmdWord = 0x200 ∧
      step t = .next u ∧ u.csCardP = false ∧ u.csLastP = false ∧ u.ev = s.ev ∧ u.cmdValid = false ∧
      step u = .next v ∧ v.seq.loc = .top .readOne ∧ v.seq.deadline = timeout.map (fun d => v.seq.clock + d) ∧
      v.csCardP = false ∧ v.seq.stop = false ∧ v.seq.result = none

/-- READ_ONE ends only at the top of an iteration: on a stop with `HL_RESULT`, else with no card and then only once
a clock reading has reached the deadline; before that, and without a deadline, it goes on to poll. Every other step of
a running READ_ONE keeps it running and returns nothing (44_poll_loop.md R187, R188, R190, R191, R192, R193). -/
def Obligations.ReadOneReturnsOnStopOrDeadline : Prop :=
  (∀ s t : State, s.seq.loc.inReadOne = true → s.seq.loc ≠ .top .readOne ∨ s.cmdValid = true → step s = .next t →
    t.seq.loc.inReadOne = true ∧ t.seq.returns = s.seq.returns) ∧
  ∀ s : State, s.cmdValid = false → s.seq.loc = .top .readOne →
    ∃ t, step s = .next t ∧
      (s.seq.drawStop.stop = true → t.seq.loc = .idle ∧ t.seq.returns = s.seq.returns ++ [.card s.seq.result]) ∧
      (s.seq.drawStop.stop = false →
        (s.seq.deadline = none → t.seq.loc = .poll .readOne ∧ t.seq.returns = s.seq.returns) ∧
        ∀ d, s.seq.deadline = some d →
          (d ≤ t.seq.clock → t.seq.loc = .idle ∧ t.seq.returns = s.seq.returns ++ [.card none]) ∧
          (t.seq.clock < d → t.seq.loc = .poll .readOne ∧ t.seq.returns = s.seq.returns))

/-- The invariant of READ_ONE is kept by every step: until an insertion the session of a started call is empty
(44_poll_loop.md R187, R188, R189). -/
def Obligations.ReadOneInvKeptByEveryStep : Prop :=
  ∀ s t : State, s.ReadOneInv → step s = .next t → t.ReadOneInv

/-- The first valid card wins: in a started READ_ONE without a result, the marker that completes a valid fragment
emits INSERTED, records the result and requests a stop; deduplication never delays it (44_poll_loop.md R188, R189). -/
def Obligations.FirstValidCardWins : Prop :=
  ∀ s : State, s.ReadOneInv → s.ReadOneStarted → s.seq.result = none → s.cmdValid = true →
    decode s.cmdWord = .feedStart ∨ decode s.cmdWord = .feedEnd → s.faCnt = 12 →
    (recordOf s.faBuf).isValid = true →
    ∃ t, step s = .next t ∧ t.evPort = some (.inserted (recordOf s.faBuf)) ∧
      t.seq.result = some (recordOf s.faBuf) ∧ t.seq.stop = true ∧ t.seq.loc = s.seq.loc

/-- The host forwards the event of each command it has run, card events to the sink and garbage reports to the
observability hook, and the insertion watcher acts in READ_ONE alone and only before there is a result
(44_poll_loop.md R185, R188). That this happens in the command's own step, so that the host takes every event as R243 of
70_reset_and_hazards.md demands, is the model's reading (log 16); the two lists are the model's own (log 17). -/
def Obligations.EventsAreForwarded : Prop :=
  ∀ s t : State, s.cmdValid = true → step s = .next t →
    t.cmdValid = false ∧ t.seq.loc = s.seq.loc ∧
    (t.evPort = none → t.seq = s.seq) ∧
    (∀ b, t.evPort = some (.garbage b) → t.seq = { s.seq with observed := s.seq.observed ++ [.garbage b] }) ∧
    (∀ e, t.evPort = some e → (∀ b, e ≠ .garbage b) →
      t.seq.sink = s.seq.sink ++ [e] ∧ t.seq.observed = s.seq.observed) ∧
    ((∀ r, t.evPort ≠ some (.inserted r)) ∨ s.seq.loc.inReadOne = false ∨ s.seq.result ≠ none →
      t.seq.result = s.seq.result ∧ t.seq.stop = s.seq.stop)
end

