-- ==== Sys2Proof/Laws/Decoder.lean ====
section
/-! SUPPORT. The decoder's helpers as concatenation: a byte pair is its two nibbles side by side, and a full buffer
is the list of its twelve nibbles. -/

namespace Sys2Proof.Machine

/-- `(hi << 4) | lo` is `hi ∥ lo` (20_memory.md R62). -/
theorem bytePair_eq_append : ∀ hi lo : Nibble, bytePair hi lo = hi ++ lo := by decide

/-- The twelve nibbles of a full buffer, in arrival order. -/
theorem toList_eq_nibbles (v : Vector Nibble 12) :
    v.toList = [v[0], v[1], v[2], v[3], v[4], v[5], v[6], v[7], v[8], v[9], v[10], v[11]] := by
  apply List.ext_getElem (by simp)
  intro k hk _
  rw [Vector.length_toList] at hk
  interval_cases k <;> simp

/-- The type field of a full buffer. -/
theorem typeOf_toList (v : Vector Nibble 12) : typeOf v.toList = (recordOf v).type := by
  rw [toList_eq_nibbles]; exact bytePair_eq_append _ _

/-- The received checksum of a full buffer. -/
theorem receivedChecksum_toList (v : Vector Nibble 12) : receivedChecksum v.toList = (recordOf v).checksum := by
  rw [toList_eq_nibbles]; exact bytePair_eq_append _ _

/-- The validity of a full buffer. -/
theorem checksumMatches_toList (v : Vector Nibble 12) : checksumMatches v.toList = (recordOf v).isValid := by
  rw [toList_eq_nibbles]
  simp [checksumMatches, calculatedChecksum, List.range, List.range.loop, bytePairAt, nibbleAt, bytePair_eq_append,
    receivedChecksum, recordOf]

end Sys2Proof.Machine
end

