-- ==== Sys2Proof/Laws/State.lean ====
section
/-! SUPPORT. What each named update of the state does to each field, one lemma per field per update, so that no
later proof unfolds a record update. -/

namespace Sys2Proof.Machine

/-! ## State.present -/

@[simp] theorem State.present_faBuf (w : CmdWord) (now : Time) (s : State) : (s.present w now).faBuf = s.faBuf := rfl

@[simp] theorem State.present_faCnt (w : CmdWord) (now : Time) (s : State) : (s.present w now).faCnt = s.faCnt := rfl

@[simp] theorem State.present_csCardP (w : CmdWord) (now : Time) (s : State) : (s.present w now).csCardP = s.csCardP := rfl

@[simp] theorem State.present_csCard (w : CmdWord) (now : Time) (s : State) : (s.present w now).csCard = s.csCard := rfl

@[simp] theorem State.present_csLastP (w : CmdWord) (now : Time) (s : State) : (s.present w now).csLastP = s.csLastP := rfl

@[simp] theorem State.present_csLastT (w : CmdWord) (now : Time) (s : State) : (s.present w now).csLastT = s.csLastT := rfl

@[simp] theorem State.present_fltRsvd (w : CmdWord) (now : Time) (s : State) : (s.present w now).fltRsvd = s.fltRsvd := rfl

@[simp] theorem State.present_ev (w : CmdWord) (now : Time) (s : State) : (s.present w now).ev = s.ev := rfl

@[simp] theorem State.present_cmdValid (w : CmdWord) (now : Time) (s : State) : (s.present w now).cmdValid = true := rfl

@[simp] theorem State.present_cmdWord (w : CmdWord) (now : Time) (s : State) : (s.present w now).cmdWord = w := rfl

@[simp] theorem State.present_cmdNow (w : CmdWord) (now : Time) (s : State) : (s.present w now).cmdNow = now := rfl

@[simp] theorem State.present_evPort (w : CmdWord) (now : Time) (s : State) : (s.present w now).evPort = s.evPort := rfl

@[simp] theorem State.present_seq (w : CmdWord) (now : Time) (s : State) : (s.present w now).seq = s.seq := rfl

/-! ## State.beginCommand -/

@[simp] theorem State.beginCommand_faBuf (s : State) : s.beginCommand.faBuf = s.faBuf := rfl

@[simp] theorem State.beginCommand_faCnt (s : State) : s.beginCommand.faCnt = s.faCnt := rfl

@[simp] theorem State.beginCommand_csCardP (s : State) : s.beginCommand.csCardP = s.csCardP := rfl

@[simp] theorem State.beginCommand_csCard (s : State) : s.beginCommand.csCard = s.csCard := rfl

@[simp] theorem State.beginCommand_csLastP (s : State) : s.beginCommand.csLastP = s.csLastP := rfl

@[simp] theorem State.beginCommand_csLastT (s : State) : s.beginCommand.csLastT = s.csLastT := rfl

@[simp] theorem State.beginCommand_fltRsvd (s : State) : s.beginCommand.fltRsvd = s.fltRsvd := rfl

@[simp] theorem State.beginCommand_ev (s : State) : s.beginCommand.ev = s.ev := rfl

@[simp] theorem State.beginCommand_cmdValid (s : State) : s.beginCommand.cmdValid = s.cmdValid := rfl

@[simp] theorem State.beginCommand_cmdWord (s : State) : s.beginCommand.cmdWord = s.cmdWord := rfl

@[simp] theorem State.beginCommand_cmdNow (s : State) : s.beginCommand.cmdNow = s.cmdNow := rfl

@[simp] theorem State.beginCommand_evPort (s : State) : s.beginCommand.evPort = none := rfl

@[simp] theorem State.beginCommand_seq (s : State) : s.beginCommand.seq = s.seq := rfl

/-! ## State.emit -/

@[simp] theorem State.emit_faBuf (e : Event) (s : State) : (s.emit e).faBuf = s.faBuf := rfl

@[simp] theorem State.emit_faCnt (e : Event) (s : State) : (s.emit e).faCnt = s.faCnt := rfl

@[simp] theorem State.emit_csCardP (e : Event) (s : State) : (s.emit e).csCardP = s.csCardP := rfl

@[simp] theorem State.emit_csCard (e : Event) (s : State) : (s.emit e).csCard = s.csCard := rfl

@[simp] theorem State.emit_csLastP (e : Event) (s : State) : (s.emit e).csLastP = s.csLastP := rfl

@[simp] theorem State.emit_csLastT (e : Event) (s : State) : (s.emit e).csLastT = s.csLastT := rfl

@[simp] theorem State.emit_fltRsvd (e : Event) (s : State) : (s.emit e).fltRsvd = s.fltRsvd := rfl

@[simp] theorem State.emit_ev (e : Event) (s : State) : (s.emit e).ev = s.ev ++ [e] := rfl

@[simp] theorem State.emit_cmdValid (e : Event) (s : State) : (s.emit e).cmdValid = s.cmdValid := rfl

@[simp] theorem State.emit_cmdWord (e : Event) (s : State) : (s.emit e).cmdWord = s.cmdWord := rfl

@[simp] theorem State.emit_cmdNow (e : Event) (s : State) : (s.emit e).cmdNow = s.cmdNow := rfl

@[simp] theorem State.emit_evPort (e : Event) (s : State) : (s.emit e).evPort = some e := rfl

@[simp] theorem State.emit_seq (e : Event) (s : State) : (s.emit e).seq = s.seq := rfl

/-! ## State.raise -/

@[simp] theorem State.raise_faBuf (s : State) : (s.raise .reservedCommand).faBuf = s.faBuf := rfl

@[simp] theorem State.raise_faCnt (s : State) : (s.raise .reservedCommand).faCnt = s.faCnt := rfl

@[simp] theorem State.raise_csCardP (s : State) : (s.raise .reservedCommand).csCardP = s.csCardP := rfl

@[simp] theorem State.raise_csCard (s : State) : (s.raise .reservedCommand).csCard = s.csCard := rfl

@[simp] theorem State.raise_csLastP (s : State) : (s.raise .reservedCommand).csLastP = s.csLastP := rfl

@[simp] theorem State.raise_csLastT (s : State) : (s.raise .reservedCommand).csLastT = s.csLastT := rfl

@[simp] theorem State.raise_fltRsvd (s : State) : (s.raise .reservedCommand).fltRsvd = true := rfl

@[simp] theorem State.raise_ev (s : State) : (s.raise .reservedCommand).ev = s.ev := rfl

@[simp] theorem State.raise_cmdValid (s : State) : (s.raise .reservedCommand).cmdValid = s.cmdValid := rfl

@[simp] theorem State.raise_cmdWord (s : State) : (s.raise .reservedCommand).cmdWord = s.cmdWord := rfl

@[simp] theorem State.raise_cmdNow (s : State) : (s.raise .reservedCommand).cmdNow = s.cmdNow := rfl

@[simp] theorem State.raise_evPort (s : State) : (s.raise .reservedCommand).evPort = s.evPort := rfl

@[simp] theorem State.raise_seq (s : State) : (s.raise .reservedCommand).seq = s.seq := rfl

/-! ## State.clearFragment -/

@[simp] theorem State.clearFragment_faBuf (s : State) : s.clearFragment.faBuf = s.faBuf := rfl

@[simp] theorem State.clearFragment_faCnt (s : State) : s.clearFragment.faCnt = 0 := rfl

@[simp] theorem State.clearFragment_csCardP (s : State) : s.clearFragment.csCardP = s.csCardP := rfl

@[simp] theorem State.clearFragment_csCard (s : State) : s.clearFragment.csCard = s.csCard := rfl

@[simp] theorem State.clearFragment_csLastP (s : State) : s.clearFragment.csLastP = s.csLastP := rfl

@[simp] theorem State.clearFragment_csLastT (s : State) : s.clearFragment.csLastT = s.csLastT := rfl

@[simp] theorem State.clearFragment_fltRsvd (s : State) : s.clearFragment.fltRsvd = s.fltRsvd := rfl

@[simp] theorem State.clearFragment_ev (s : State) : s.clearFragment.ev = s.ev := rfl

@[simp] theorem State.clearFragment_cmdValid (s : State) : s.clearFragment.cmdValid = s.cmdValid := rfl

@[simp] theorem State.clearFragment_cmdWord (s : State) : s.clearFragment.cmdWord = s.cmdWord := rfl

@[simp] theorem State.clearFragment_cmdNow (s : State) : s.clearFragment.cmdNow = s.cmdNow := rfl

@[simp] theorem State.clearFragment_evPort (s : State) : s.clearFragment.evPort = s.evPort := rfl

@[simp] theorem State.clearFragment_seq (s : State) : s.clearFragment.seq = s.seq := rfl

/-! ## State.refresh -/

@[simp] theorem State.refresh_faBuf (now : Time) (s : State) : (s.refresh now).faBuf = s.faBuf := rfl

@[simp] theorem State.refresh_faCnt (now : Time) (s : State) : (s.refresh now).faCnt = s.faCnt := rfl

@[simp] theorem State.refresh_csCardP (now : Time) (s : State) : (s.refresh now).csCardP = s.csCardP := rfl

@[simp] theorem State.refresh_csCard (now : Time) (s : State) : (s.refresh now).csCard = s.csCard := rfl

@[simp] theorem State.refresh_csLastP (now : Time) (s : State) : (s.refresh now).csLastP = true := rfl

@[simp] theorem State.refresh_csLastT (now : Time) (s : State) : (s.refresh now).csLastT = now := rfl

@[simp] theorem State.refresh_fltRsvd (now : Time) (s : State) : (s.refresh now).fltRsvd = s.fltRsvd := rfl

@[simp] theorem State.refresh_ev (now : Time) (s : State) : (s.refresh now).ev = s.ev := rfl

@[simp] theorem State.refresh_cmdValid (now : Time) (s : State) : (s.refresh now).cmdValid = s.cmdValid := rfl

@[simp] theorem State.refresh_cmdWord (now : Time) (s : State) : (s.refresh now).cmdWord = s.cmdWord := rfl

@[simp] theorem State.refresh_cmdNow (now : Time) (s : State) : (s.refresh now).cmdNow = s.cmdNow := rfl

@[simp] theorem State.refresh_evPort (now : Time) (s : State) : (s.refresh now).evPort = s.evPort := rfl

@[simp] theorem State.refresh_seq (now : Time) (s : State) : (s.refresh now).seq = s.seq := rfl

/-! ## State.setCard -/

@[simp] theorem State.setCard_faBuf (rec : CardRecord) (s : State) : (s.setCard rec).faBuf = s.faBuf := rfl

@[simp] theorem State.setCard_faCnt (rec : CardRecord) (s : State) : (s.setCard rec).faCnt = s.faCnt := rfl

@[simp] theorem State.setCard_csCardP (rec : CardRecord) (s : State) : (s.setCard rec).csCardP = true := rfl

@[simp] theorem State.setCard_csCard (rec : CardRecord) (s : State) : (s.setCard rec).csCard = rec := rfl

@[simp] theorem State.setCard_csLastP (rec : CardRecord) (s : State) : (s.setCard rec).csLastP = s.csLastP := rfl

@[simp] theorem State.setCard_csLastT (rec : CardRecord) (s : State) : (s.setCard rec).csLastT = s.csLastT := rfl

@[simp] theorem State.setCard_fltRsvd (rec : CardRecord) (s : State) : (s.setCard rec).fltRsvd = s.fltRsvd := rfl

@[simp] theorem State.setCard_ev (rec : CardRecord) (s : State) : (s.setCard rec).ev = s.ev := rfl

@[simp] theorem State.setCard_cmdValid (rec : CardRecord) (s : State) : (s.setCard rec).cmdValid = s.cmdValid := rfl

@[simp] theorem State.setCard_cmdWord (rec : CardRecord) (s : State) : (s.setCard rec).cmdWord = s.cmdWord := rfl

@[simp] theorem State.setCard_cmdNow (rec : CardRecord) (s : State) : (s.setCard rec).cmdNow = s.cmdNow := rfl

@[simp] theorem State.setCard_evPort (rec : CardRecord) (s : State) : (s.setCard rec).evPort = s.evPort := rfl

@[simp] theorem State.setCard_seq (rec : CardRecord) (s : State) : (s.setCard rec).seq = s.seq := rfl

/-! ## State.clearSession -/

@[simp] theorem State.clearSession_faBuf (s : State) : s.clearSession.faBuf = s.faBuf := rfl

@[simp] theorem State.clearSession_faCnt (s : State) : s.clearSession.faCnt = s.faCnt := rfl

@[simp] theorem State.clearSession_csCardP (s : State) : s.clearSession.csCardP = false := rfl

@[simp] theorem State.clearSession_csCard (s : State) : s.clearSession.csCard = s.csCard := rfl

@[simp] theorem State.clearSession_csLastP (s : State) : s.clearSession.csLastP = false := rfl

@[simp] theorem State.clearSession_csLastT (s : State) : s.clearSession.csLastT = s.csLastT := rfl

@[simp] theorem State.clearSession_fltRsvd (s : State) : s.clearSession.fltRsvd = s.fltRsvd := rfl

@[simp] theorem State.clearSession_ev (s : State) : s.clearSession.ev = s.ev := rfl

@[simp] theorem State.clearSession_cmdValid (s : State) : s.clearSession.cmdValid = s.cmdValid := rfl

@[simp] theorem State.clearSession_cmdWord (s : State) : s.clearSession.cmdWord = s.cmdWord := rfl

@[simp] theorem State.clearSession_cmdNow (s : State) : s.clearSession.cmdNow = s.cmdNow := rfl

@[simp] theorem State.clearSession_evPort (s : State) : s.clearSession.evPort = s.evPort := rfl

@[simp] theorem State.clearSession_seq (s : State) : s.clearSession.seq = s.seq := rfl

/-! ## State.blockReset -/

@[simp] theorem State.blockReset_faBuf (s : State) : s.blockReset.faBuf = Vector.replicate 12 0 := rfl

@[simp] theorem State.blockReset_faCnt (s : State) : s.blockReset.faCnt = 0 := rfl

@[simp] theorem State.blockReset_csCardP (s : State) : s.blockReset.csCardP = false := rfl

@[simp] theorem State.blockReset_csCard (s : State) : s.blockReset.csCard = CardRecord.zero := rfl

@[simp] theorem State.blockReset_csLastP (s : State) : s.blockReset.csLastP = false := rfl

@[simp] theorem State.blockReset_csLastT (s : State) : s.blockReset.csLastT = 0 := rfl

@[simp] theorem State.blockReset_fltRsvd (s : State) : s.blockReset.fltRsvd = false := rfl

@[simp] theorem State.blockReset_ev (s : State) : s.blockReset.ev = [] := rfl

@[simp] theorem State.blockReset_cmdValid (s : State) : s.blockReset.cmdValid = s.cmdValid := rfl

@[simp] theorem State.blockReset_cmdWord (s : State) : s.blockReset.cmdWord = s.cmdWord := rfl

@[simp] theorem State.blockReset_cmdNow (s : State) : s.blockReset.cmdNow = s.cmdNow := rfl

@[simp] theorem State.blockReset_evPort (s : State) : s.blockReset.evPort = none := rfl

@[simp] theorem State.blockReset_seq (s : State) : s.blockReset.seq = s.seq := rfl

/-! ## State.completeCommand -/

@[simp] theorem State.completeCommand_faBuf (s : State) : s.completeCommand.faBuf = s.faBuf := rfl

@[simp] theorem State.completeCommand_faCnt (s : State) : s.completeCommand.faCnt = s.faCnt := rfl

@[simp] theorem State.completeCommand_csCardP (s : State) : s.completeCommand.csCardP = s.csCardP := rfl

@[simp] theorem State.completeCommand_csCard (s : State) : s.completeCommand.csCard = s.csCard := rfl

@[simp] theorem State.completeCommand_csLastP (s : State) : s.completeCommand.csLastP = s.csLastP := rfl

@[simp] theorem State.completeCommand_csLastT (s : State) : s.completeCommand.csLastT = s.csLastT := rfl

@[simp] theorem State.completeCommand_fltRsvd (s : State) : s.completeCommand.fltRsvd = s.fltRsvd := rfl

@[simp] theorem State.completeCommand_ev (s : State) : s.completeCommand.ev = s.ev := rfl

@[simp] theorem State.completeCommand_cmdValid (s : State) : s.completeCommand.cmdValid = false := rfl

@[simp] theorem State.completeCommand_cmdWord (s : State) : s.completeCommand.cmdWord = s.cmdWord := rfl

@[simp] theorem State.completeCommand_cmdNow (s : State) : s.completeCommand.cmdNow = s.cmdNow := rfl

@[simp] theorem State.completeCommand_evPort (s : State) : s.completeCommand.evPort = s.evPort := rfl

@[simp] theorem State.completeCommand_seq (s : State) : s.completeCommand.seq = s.seq.take s.evPort := rfl

/-! ## State.appendNibble -/

@[simp] theorem State.appendNibble_csCardP (n : Nibble) (s : State) : (s.appendNibble n).csCardP = s.csCardP := by
  unfold State.appendNibble; split <;> rfl

@[simp] theorem State.appendNibble_csCard (n : Nibble) (s : State) : (s.appendNibble n).csCard = s.csCard := by
  unfold State.appendNibble; split <;> rfl

@[simp] theorem State.appendNibble_csLastP (n : Nibble) (s : State) : (s.appendNibble n).csLastP = s.csLastP := by
  unfold State.appendNibble; split <;> rfl

@[simp] theorem State.appendNibble_csLastT (n : Nibble) (s : State) : (s.appendNibble n).csLastT = s.csLastT := by
  unfold State.appendNibble; split <;> rfl

@[simp] theorem State.appendNibble_fltRsvd (n : Nibble) (s : State) : (s.appendNibble n).fltRsvd = s.fltRsvd := by
  unfold State.appendNibble; split <;> rfl

@[simp] theorem State.appendNibble_ev (n : Nibble) (s : State) : (s.appendNibble n).ev = s.ev := by
  unfold State.appendNibble; split <;> rfl

@[simp] theorem State.appendNibble_cmdValid (n : Nibble) (s : State) : (s.appendNibble n).cmdValid = s.cmdValid := by
  unfold State.appendNibble; split <;> rfl

@[simp] theorem State.appendNibble_cmdWord (n : Nibble) (s : State) : (s.appendNibble n).cmdWord = s.cmdWord := by
  unfold State.appendNibble; split <;> rfl

@[simp] theorem State.appendNibble_cmdNow (n : Nibble) (s : State) : (s.appendNibble n).cmdNow = s.cmdNow := by
  unfold State.appendNibble; split <;> rfl

@[simp] theorem State.appendNibble_evPort (n : Nibble) (s : State) : (s.appendNibble n).evPort = s.evPort := by
  unfold State.appendNibble; split <;> rfl

@[simp] theorem State.appendNibble_seq (n : Nibble) (s : State) : (s.appendNibble n).seq = s.seq := by
  unfold State.appendNibble; split <;> rfl

theorem State.appendNibble_of_lt (n : Nibble) (s : State) (h : s.faCnt.val < 12) :
    s.appendNibble n = { s with faBuf := s.faBuf.set s.faCnt.val n h, faCnt := ⟨s.faCnt.val + 1, by omega⟩ } :=
  dif_pos h

theorem State.appendNibble_of_le (n : Nibble) (s : State) (h : 12 ≤ s.faCnt.val) :
    s.appendNibble n = { s with faCnt := 13 } :=
  dif_neg (by omega)

/-! ## The sequencer's draws and updates -/

@[simp] theorem Sequencer.drawPoll_stop (q : Sequencer) : q.drawPoll.2.stop = q.stop := by
  unfold Sequencer.drawPoll; split <;> rfl

@[simp] theorem Sequencer.drawPoll_deadline (q : Sequencer) : q.drawPoll.2.deadline = q.deadline := by
  unfold Sequencer.drawPoll; split <;> rfl

@[simp] theorem Sequencer.drawPoll_result (q : Sequencer) : q.drawPoll.2.result = q.result := by
  unfold Sequencer.drawPoll; split <;> rfl

@[simp] theorem Sequencer.drawPoll_loc (q : Sequencer) : q.drawPoll.2.loc = q.loc := by
  unfold Sequencer.drawPoll; split <;> rfl

@[simp] theorem Sequencer.drawPoll_transport (q : Sequencer) : q.drawPoll.2.transport = q.transport := by
  unfold Sequencer.drawPoll; split <;> rfl

@[simp] theorem Sequencer.drawPoll_calls (q : Sequencer) : q.drawPoll.2.calls = q.calls := by
  unfold Sequencer.drawPoll; split <;> rfl

@[simp] theorem Sequencer.drawPoll_sink (q : Sequencer) : q.drawPoll.2.sink = q.sink := by
  unfold Sequencer.drawPoll; split <;> rfl

@[simp] theorem Sequencer.drawPoll_observed (q : Sequencer) : q.drawPoll.2.observed = q.observed := by
  unfold Sequencer.drawPoll; split <;> rfl

@[simp] theorem Sequencer.drawPoll_returns (q : Sequencer) : q.drawPoll.2.returns = q.returns := by
  unfold Sequencer.drawPoll; split <;> rfl

@[simp] theorem Sequencer.drawPoll_seen (q : Sequencer) : q.drawPoll.2.seen = q.seen := by
  unfold Sequencer.drawPoll; split <;> rfl

@[simp] theorem Sequencer.drawPoll_clock (q : Sequencer) : q.drawPoll.2.clock = q.clock := by
  unfold Sequencer.drawPoll; split <;> rfl

@[simp] theorem Sequencer.readClock_stop (q : Sequencer) : q.readClock.2.stop = q.stop := by
  unfold Sequencer.readClock; split <;> rfl

@[simp] theorem Sequencer.readClock_deadline (q : Sequencer) : q.readClock.2.deadline = q.deadline := by
  unfold Sequencer.readClock; split <;> rfl

@[simp] theorem Sequencer.readClock_result (q : Sequencer) : q.readClock.2.result = q.result := by
  unfold Sequencer.readClock; split <;> rfl

@[simp] theorem Sequencer.readClock_loc (q : Sequencer) : q.readClock.2.loc = q.loc := by
  unfold Sequencer.readClock; split <;> rfl

@[simp] theorem Sequencer.readClock_transport (q : Sequencer) : q.readClock.2.transport = q.transport := by
  unfold Sequencer.readClock; split <;> rfl

@[simp] theorem Sequencer.readClock_calls (q : Sequencer) : q.readClock.2.calls = q.calls := by
  unfold Sequencer.readClock; split <;> rfl

@[simp] theorem Sequencer.readClock_sink (q : Sequencer) : q.readClock.2.sink = q.sink := by
  unfold Sequencer.readClock; split <;> rfl

@[simp] theorem Sequencer.readClock_observed (q : Sequencer) : q.readClock.2.observed = q.observed := by
  unfold Sequencer.readClock; split <;> rfl

@[simp] theorem Sequencer.readClock_returns (q : Sequencer) : q.readClock.2.returns = q.returns := by
  unfold Sequencer.readClock; split <;> rfl

@[simp] theorem Sequencer.readClock_seen (q : Sequencer) : q.readClock.2.seen = q.seen := by
  unfold Sequencer.readClock; split <;> rfl

@[simp] theorem Sequencer.drawHook_stop (q : Sequencer) : q.drawHook.2.stop = q.stop := by
  unfold Sequencer.drawHook; split <;> rfl

@[simp] theorem Sequencer.drawHook_deadline (q : Sequencer) : q.drawHook.2.deadline = q.deadline := by
  unfold Sequencer.drawHook; split <;> rfl

@[simp] theorem Sequencer.drawHook_result (q : Sequencer) : q.drawHook.2.result = q.result := by
  unfold Sequencer.drawHook; split <;> rfl

@[simp] theorem Sequencer.drawHook_loc (q : Sequencer) : q.drawHook.2.loc = q.loc := by
  unfold Sequencer.drawHook; split <;> rfl

@[simp] theorem Sequencer.drawHook_transport (q : Sequencer) : q.drawHook.2.transport = q.transport := by
  unfold Sequencer.drawHook; split <;> rfl

@[simp] theorem Sequencer.drawHook_calls (q : Sequencer) : q.drawHook.2.calls = q.calls := by
  unfold Sequencer.drawHook; split <;> rfl

@[simp] theorem Sequencer.drawHook_sink (q : Sequencer) : q.drawHook.2.sink = q.sink := by
  unfold Sequencer.drawHook; split <;> rfl

@[simp] theorem Sequencer.drawHook_observed (q : Sequencer) : q.drawHook.2.observed = q.observed := by
  unfold Sequencer.drawHook; split <;> rfl

@[simp] theorem Sequencer.drawHook_returns (q : Sequencer) : q.drawHook.2.returns = q.returns := by
  unfold Sequencer.drawHook; split <;> rfl

@[simp] theorem Sequencer.drawHook_seen (q : Sequencer) : q.drawHook.2.seen = q.seen := by
  unfold Sequencer.drawHook; split <;> rfl

@[simp] theorem Sequencer.drawHook_clock (q : Sequencer) : q.drawHook.2.clock = q.clock := by
  unfold Sequencer.drawHook; split <;> rfl

@[simp] theorem Sequencer.drawStop_deadline (q : Sequencer) : q.drawStop.deadline = q.deadline := by
  unfold Sequencer.drawStop; split <;> rfl

@[simp] theorem Sequencer.drawStop_result (q : Sequencer) : q.drawStop.result = q.result := by
  unfold Sequencer.drawStop; split <;> rfl

@[simp] theorem Sequencer.drawStop_loc (q : Sequencer) : q.drawStop.loc = q.loc := by
  unfold Sequencer.drawStop; split <;> rfl

@[simp] theorem Sequencer.drawStop_transport (q : Sequencer) : q.drawStop.transport = q.transport := by
  unfold Sequencer.drawStop; split <;> rfl

@[simp] theorem Sequencer.drawStop_calls (q : Sequencer) : q.drawStop.calls = q.calls := by
  unfold Sequencer.drawStop; split <;> rfl

@[simp] theorem Sequencer.drawStop_sink (q : Sequencer) : q.drawStop.sink = q.sink := by
  unfold Sequencer.drawStop; split <;> rfl

@[simp] theorem Sequencer.drawStop_observed (q : Sequencer) : q.drawStop.observed = q.observed := by
  unfold Sequencer.drawStop; split <;> rfl

@[simp] theorem Sequencer.drawStop_returns (q : Sequencer) : q.drawStop.returns = q.returns := by
  unfold Sequencer.drawStop; split <;> rfl

@[simp] theorem Sequencer.drawStop_seen (q : Sequencer) : q.drawStop.seen = q.seen := by
  unfold Sequencer.drawStop; split <;> rfl

@[simp] theorem Sequencer.drawStop_clock (q : Sequencer) : q.drawStop.clock = q.clock := by
  unfold Sequencer.drawStop; split <;> rfl

/-- A draw never clears `HL_STOP`. -/
theorem Sequencer.drawStop_stop_of_stop (q : Sequencer) (h : q.stop = true) : q.drawStop.stop = true := by
  unfold Sequencer.drawStop; split <;> simp [h]

/-- The reading is what the clock now holds. -/
@[simp] theorem Sequencer.readClock_clock (q : Sequencer) : q.readClock.2.clock = q.readClock.1 := by
  unfold Sequencer.readClock; split <;> rfl

/-- A reading is at least every earlier one. -/
theorem Sequencer.le_readClock (q : Sequencer) : q.clock ≤ q.readClock.1 := by
  unfold Sequencer.readClock; split <;> simp

@[simp] theorem Sequencer.watch_deadline (e : Event) (q : Sequencer) : (q.watch e).deadline = q.deadline := by
  unfold Sequencer.watch; split <;> (try split) <;> rfl

@[simp] theorem Sequencer.watch_loc (e : Event) (q : Sequencer) : (q.watch e).loc = q.loc := by
  unfold Sequencer.watch; split <;> (try split) <;> rfl

@[simp] theorem Sequencer.watch_transport (e : Event) (q : Sequencer) : (q.watch e).transport = q.transport := by
  unfold Sequencer.watch; split <;> (try split) <;> rfl

@[simp] theorem Sequencer.watch_calls (e : Event) (q : Sequencer) : (q.watch e).calls = q.calls := by
  unfold Sequencer.watch; split <;> (try split) <;> rfl

@[simp] theorem Sequencer.watch_clock (e : Event) (q : Sequencer) : (q.watch e).clock = q.clock := by
  unfold Sequencer.watch; split <;> (try split) <;> rfl

@[simp] theorem Sequencer.watch_polls (e : Event) (q : Sequencer) : (q.watch e).polls = q.polls := by
  unfold Sequencer.watch; split <;> (try split) <;> rfl

@[simp] theorem Sequencer.watch_advances (e : Event) (q : Sequencer) : (q.watch e).advances = q.advances := by
  unfold Sequencer.watch; split <;> (try split) <;> rfl

@[simp] theorem Sequencer.watch_hooks (e : Event) (q : Sequencer) : (q.watch e).hooks = q.hooks := by
  unfold Sequencer.watch; split <;> (try split) <;> rfl

@[simp] theorem Sequencer.watch_stops (e : Event) (q : Sequencer) : (q.watch e).stops = q.stops := by
  unfold Sequencer.watch; split <;> (try split) <;> rfl

@[simp] theorem Sequencer.watch_draws (e : Event) (q : Sequencer) : (q.watch e).draws = q.draws := by
  unfold Sequencer.watch; split <;> (try split) <;> rfl

@[simp] theorem Sequencer.watch_returns (e : Event) (q : Sequencer) : (q.watch e).returns = q.returns := by
  unfold Sequencer.watch; split <;> (try split) <;> rfl

@[simp] theorem Sequencer.watch_seen (e : Event) (q : Sequencer) : (q.watch e).seen = q.seen := by
  unfold Sequencer.watch; split <;> (try split) <;> rfl

@[simp] theorem Sequencer.watch_sink (e : Event) (q : Sequencer) : (q.watch e).sink = q.sink := by
  unfold Sequencer.watch; split <;> (try split) <;> rfl

@[simp] theorem Sequencer.watch_observed (e : Event) (q : Sequencer) : (q.watch e).observed = q.observed := by
  unfold Sequencer.watch; split <;> (try split) <;> rfl

@[simp] theorem Sequencer.forward_stop (e : Event) (q : Sequencer) : (q.forward e).stop = q.stop := by
  unfold Sequencer.forward; split <;> rfl

@[simp] theorem Sequencer.forward_deadline (e : Event) (q : Sequencer) : (q.forward e).deadline = q.deadline := by
  unfold Sequencer.forward; split <;> rfl

@[simp] theorem Sequencer.forward_result (e : Event) (q : Sequencer) : (q.forward e).result = q.result := by
  unfold Sequencer.forward; split <;> rfl

@[simp] theorem Sequencer.forward_loc (e : Event) (q : Sequencer) : (q.forward e).loc = q.loc := by
  unfold Sequencer.forward; split <;> rfl

@[simp] theorem Sequencer.forward_transport (e : Event) (q : Sequencer) : (q.forward e).transport = q.transport := by
  unfold Sequencer.forward; split <;> rfl

@[simp] theorem Sequencer.forward_calls (e : Event) (q : Sequencer) : (q.forward e).calls = q.calls := by
  unfold Sequencer.forward; split <;> rfl

@[simp] theorem Sequencer.forward_clock (e : Event) (q : Sequencer) : (q.forward e).clock = q.clock := by
  unfold Sequencer.forward; split <;> rfl

@[simp] theorem Sequencer.forward_polls (e : Event) (q : Sequencer) : (q.forward e).polls = q.polls := by
  unfold Sequencer.forward; split <;> rfl

@[simp] theorem Sequencer.forward_advances (e : Event) (q : Sequencer) : (q.forward e).advances = q.advances := by
  unfold Sequencer.forward; split <;> rfl

@[simp] theorem Sequencer.forward_hooks (e : Event) (q : Sequencer) : (q.forward e).hooks = q.hooks := by
  unfold Sequencer.forward; split <;> rfl

@[simp] theorem Sequencer.forward_stops (e : Event) (q : Sequencer) : (q.forward e).stops = q.stops := by
  unfold Sequencer.forward; split <;> rfl

@[simp] theorem Sequencer.forward_draws (e : Event) (q : Sequencer) : (q.forward e).draws = q.draws := by
  unfold Sequencer.forward; split <;> rfl

@[simp] theorem Sequencer.forward_returns (e : Event) (q : Sequencer) : (q.forward e).returns = q.returns := by
  unfold Sequencer.forward; split <;> rfl

@[simp] theorem Sequencer.forward_seen (e : Event) (q : Sequencer) : (q.forward e).seen = q.seen := by
  unfold Sequencer.forward; split <;> rfl

@[simp] theorem Sequencer.take_loc (p : Option Event) (q : Sequencer) : (q.take p).loc = q.loc := by
  unfold Sequencer.take; split <;> simp

@[simp] theorem Sequencer.take_transport (p : Option Event) (q : Sequencer) : (q.take p).transport = q.transport := by
  unfold Sequencer.take; split <;> simp

@[simp] theorem Sequencer.take_clock (p : Option Event) (q : Sequencer) : (q.take p).clock = q.clock := by
  unfold Sequencer.take; split <;> simp

@[simp] theorem Sequencer.take_calls (p : Option Event) (q : Sequencer) : (q.take p).calls = q.calls := by
  unfold Sequencer.take; split <;> simp

@[simp] theorem Sequencer.take_deadline (p : Option Event) (q : Sequencer) : (q.take p).deadline = q.deadline := by
  unfold Sequencer.take; split <;> simp

@[simp] theorem Sequencer.take_returns (p : Option Event) (q : Sequencer) : (q.take p).returns = q.returns := by
  unfold Sequencer.take; split <;> simp

end Sys2Proof.Machine
end

