-- ==== Sys2Proof/Laws/Operations.lean ====
section
/-! SUPPORT. What each shared operation can do, said once: the cases of the session step, of a flush, of the
heartbeat, of a command and of a machine step. Later proofs cite these. -/

namespace Sys2Proof.Machine

/-! ## The fragment -/

theorem State.fragment_of_le (s : State) (h : s.faCnt.val ≤ 12) :
    s.fragment = .exact (s.faBuf.toList.take s.faCnt.val) := if_pos h

theorem State.fragment_of_full (s : State) (h : s.faCnt = 12) : s.fragment = .exact s.faBuf.toList := by
  have h' : s.faCnt.val = 12 := by rw [h]; rfl
  rw [State.fragment_of_le s (by omega), h']
  simp

/-- The fragment is a matter of the buffer and the count alone. -/
theorem State.fragment_congr {s t : State} (hb : s.faBuf = t.faBuf) (hc : s.faCnt = t.faCnt) :
    s.fragment = t.fragment := by
  unfold State.fragment; rw [hb, hc]

/-- Below 12 nibbles an append puts the nibble at the fragment's end. -/
theorem State.fragment_appendNibble (n : Nibble) (s : State) (h : s.faCnt.val < 12) :
    (s.appendNibble n).fragment = .exact (s.faBuf.toList.take s.faCnt.val ++ [n]) := by
  have hlen : s.faCnt.val < s.faBuf.toList.length := by simpa using h
  rw [State.appendNibble_of_lt n s h, State.fragment_of_le _ (by simpa using h)]
  congr 1
  simp only [Vector.toList_set]
  rw [List.take_succ_eq_append_getElem (by simpa using h)]
  simp [List.take_set_of_le]

/-! ## DECODE -/

theorem decodeNibbles_of_length_ne (f : List Nibble) (h : f.length ≠ 12) : decodeNibbles f = none := if_neg h

theorem decodeNibbles_of_length (f : List Nibble) (h : f.length = 12) :
    decodeNibbles f =
      some { type := typeOf f, value := valueOf f, checksum := receivedChecksum f, isValid := checksumMatches f } :=
  if_pos h

/-- Every fragment whose count is not 12 decodes to no record. -/
theorem State.decode_fragment_of_ne (s : State) (h : s.faCnt ≠ 12) : decodeFragment s.fragment = none := by
  unfold State.fragment
  split
  · refine decodeNibbles_of_length_ne _ ?_
    have : s.faCnt.val ≠ 12 := fun e => h (Fin.ext e)
    simp; omega
  · rfl

/-! ## SESSION_FRAGMENT, FLUSH and the heartbeat -/

/-- What SESSION_FRAGMENT can do: nothing, report, refresh, or insert. -/
theorem sessionFragment_cases (r : Option CardRecord) (now : Time) (s : State) :
    (r = none ∧ sessionFragment r now s = s) ∨
    (∃ rec, r = some rec ∧ rec.isValid = false ∧ sessionFragment r now s = s.emit (.invalid rec)) ∨
    (∃ rec, r = some rec ∧ rec.isValid = true ∧ s.csCardP = true ∧ s.csCard = rec ∧
      sessionFragment r now s = s.refresh now) ∨
    (∃ rec, r = some rec ∧ rec.isValid = true ∧ (s.csCardP = true → s.csCard ≠ rec) ∧
      sessionFragment r now s = ((s.refresh now).setCard rec).emit (.inserted rec)) := by
  rcases r with _ | rec
  · exact .inl ⟨rfl, rfl⟩
  · right
    by_cases hv : rec.isValid = true
    · right
      by_cases hs : s.csCardP = true ∧ s.csCard = rec
      · exact .inl ⟨rec, rfl, hv, hs.1, hs.2, by simp [sessionFragment, hv, acceptRecord, State.same, hs.1, hs.2]⟩
      · refine .inr ⟨rec, rfl, hv, fun h e => hs ⟨h, e⟩, ?_⟩
        have hne : ¬ s.same rec = true := by simpa [State.same] using hs
        simp only [sessionFragment, hv, acceptRecord, if_true]
        exact if_neg hne
    · exact .inl ⟨rec, rfl, by simpa using hv, by simp [sessionFragment, hv]⟩

/-- What a flush can do: nothing on an empty buffer, else clear it and run SESSION_FRAGMENT. -/
theorem flush_cases (now : Time) (s : State) :
    (s.faCnt = 0 ∧ flush now s = s) ∨
    (s.faCnt ≠ 0 ∧ flush now s = sessionFragment (decodeFragment s.fragment) now s.clearFragment) := by
  unfold flush; split
  · exact .inl ⟨‹_›, rfl⟩
  · exact .inr ⟨‹_›, rfl⟩

/-- The lapse as an inequality of times. -/
theorem State.lapsed_iff (hb now : Time) (s : State) :
    s.lapsed hb now = true ↔ s.csLastP = true ∧ 0 < hb ∧ s.csLastT + hb < now := by
  have key : hb < satSub now s.csLastT ↔ s.csLastT + hb < now := by
    unfold satSub Time; split <;> omega
  simp [State.lapsed, key, and_assoc]

/-- What the heartbeat can do: remove the card, or nothing. -/
theorem heartbeat_cases (hb now : Time) (s : State) :
    (s.lapsed hb now = true ∧ heartbeat hb now s = (s.emit (.removed s.csCard)).clearSession) ∨
    (s.lapsed hb now = false ∧ heartbeat hb now s = s) := by
  unfold heartbeat
  by_cases h : s.lapsed hb now = true
  · exact .inl ⟨h, if_pos h⟩
  · exact .inr ⟨by simpa using h, if_neg h⟩

/-! ## Commands -/

/-- The state a command leads to. -/
def execNext (i : Instr) (s : State) : State :=
  match exec i s with
  | .next t => t
  | .fault _ => s
  | .refused _ => s

theorem exec_eq_execNext (i : Instr) (s : State) : exec i s = .next (execNext i s) := by cases i <;> rfl

theorem execNext_feedStart (s : State) : execNext .feedStart s = flush s.cmdNow s.beginCommand := rfl

theorem execNext_feedEnd (s : State) : execNext .feedEnd s = flush s.cmdNow s.beginCommand := rfl

theorem execNext_feedHex (n : Nibble) (c : LetterCase) (s : State) :
    execNext (.feedHex n c) s = s.beginCommand.appendNibble n := rfl

theorem execNext_feedGarbage (b : Byte) (s : State) :
    execNext (.feedGarbage b) s = s.beginCommand.clearFragment.emit (.garbage b) := rfl

theorem execNext_tick (ignored : Byte) (s : State) :
    execNext (.tick ignored) s = heartbeat Config.hbInterval s.cmdNow s.beginCommand := rfl

theorem execNext_sessionReset (ignored : Byte) (s : State) :
    execNext (.sessionReset ignored) s = s.beginCommand.clearSession := rfl

theorem execNext_reserved (ignored : Byte) (s : State) :
    execNext (.reserved ignored) s = s.beginCommand.raise .reservedCommand := rfl

/-- What a command can do, said once: its event, its session registers and its fragment. -/
theorem execNext_cases (i : Instr) (s : State) :
    (execNext i s = s.beginCommand) ∨
    (∃ n c, i = .feedHex n c ∧ execNext i s = s.beginCommand.appendNibble n) ∨
    (∃ b, i = .feedGarbage b ∧ execNext i s = s.beginCommand.clearFragment.emit (.garbage b)) ∨
    (∃ b, i = .tick b ∧ s.lapsed Config.hbInterval s.cmdNow = true ∧
      execNext i s = (s.beginCommand.emit (.removed s.csCard)).clearSession) ∨
    (∃ b, i = .sessionReset b ∧ execNext i s = s.beginCommand.clearSession) ∨
    (∃ b, i = .reserved b ∧ execNext i s = s.beginCommand.raise .reservedCommand) ∨
    ((i = .feedStart ∨ i = .feedEnd) ∧ s.faCnt ≠ 0 ∧
      execNext i s = sessionFragment (decodeFragment s.fragment) s.cmdNow s.beginCommand.clearFragment) := by
  have marker : flush s.cmdNow s.beginCommand = s.beginCommand ∨
      s.faCnt ≠ 0 ∧ flush s.cmdNow s.beginCommand =
        sessionFragment (decodeFragment s.fragment) s.cmdNow s.beginCommand.clearFragment := by
    rcases flush_cases s.cmdNow s.beginCommand with ⟨_, h⟩ | ⟨h0, h⟩
    · exact .inl h
    · exact .inr ⟨h0, h⟩
  cases i with
  | feedStart => rcases marker with h | ⟨h0, h⟩ <;> simp_all [execNext_feedStart]
  | feedEnd => rcases marker with h | ⟨h0, h⟩ <;> simp_all [execNext_feedEnd]
  | feedHex n c => exact .inr (.inl ⟨n, c, rfl, rfl⟩)
  | feedGarbage b => exact .inr (.inr (.inl ⟨b, rfl, rfl⟩))
  | tick b =>
    rcases heartbeat_cases Config.hbInterval s.cmdNow s.beginCommand with ⟨hl, h⟩ | ⟨_, h⟩
    · exact .inr (.inr (.inr (.inl ⟨b, rfl, hl, h⟩)))
    · exact .inl h
  | sessionReset b => exact .inr (.inr (.inr (.inr (.inl ⟨b, rfl, rfl⟩))))
  | reserved b => exact .inr (.inr (.inr (.inr (.inr (.inl ⟨b, rfl, rfl⟩)))))

/-! ## Commands at any value of the parameter -/

/-- `exec` is the meaning at the open value of the parameter. -/
theorem execAt_config (i : Instr) (s : State) : execAt Config.hbInterval i s = exec i s := by cases i <;> rfl

/-- The parameter matters to TICK alone. -/
theorem execAt_of_ne_tick (hb : Time) (i : Instr) (s : State) (h : i.opcode ≠ .tick) : execAt hb i s = exec i s := by
  cases i <;> first | rfl | exact absurd rfl h

theorem execAt_tick (hb : Time) (ignored : Byte) (s : State) :
    execAt hb (.tick ignored) s = .next (heartbeat hb s.cmdNow s.beginCommand) := rfl

/-- What a command can do at any value of the parameter: a TICK is the heartbeat, every other command is `exec`. -/
theorem execAt_cases (hb : Time) (i : Instr) (s : State) :
    (∃ b, i = .tick b ∧ execAt hb i s = .next (heartbeat hb s.cmdNow s.beginCommand)) ∨
    (i.opcode ≠ .tick ∧ execAt hb i s = .next (execNext i s)) := by
  by_cases h : i.opcode = .tick
  · cases i <;> first | exact .inl ⟨_, rfl, rfl⟩ | cases h
  · exact .inr ⟨h, by rw [execAt_of_ne_tick hb i s h, exec_eq_execNext]⟩

/-! ## Times -/

theorem fitsWidth_iff (tsW : Nat) (t : Time) : fitsWidth tsW t = true ↔ t < 2 ^ tsW := decide_eq_true_iff

/-- Every time fits exactly when the supplied ones and the last read's do. -/
theorem State.timesFit_iff (p : Parameters) (s : State) :
    s.timesFit p = true ↔ s.suppliedTimesFit p = true ∧ s.csLastT < 2 ^ p.tsW := by
  simp [State.timesFit, fitsWidth_iff]

/-! ## The machine step -/

/-- A step with a command presented runs the decoded command and completes it. -/
theorem step_of_valid (s : State) (h : s.cmdValid = true) :
    step s = .next (execNext (decode s.cmdWord) s).completeCommand := by
  unfold step stepAt; rw [if_pos h, execAt_config, exec_eq_execNext]

/-- A step with no command presented is a host action. -/
theorem stepAt_of_not_valid (hb : Time) (s : State) (h : s.cmdValid = false) : stepAt hb s = hostStep hb s := by
  unfold stepAt; rw [if_neg (by simp [h])]

theorem step_of_not_valid (s : State) (h : s.cmdValid = false) : step s = hostStep Config.hbInterval s :=
  stepAt_of_not_valid _ s h

/-- The step with both parameters answers a next state exactly when the step at the interval does and every time of
that state fits. -/
theorem stepWith_next_iff (p : Parameters) (s t : State) :
    stepWith p s = .next t ↔ stepAt p.hbInterval s = .next t ∧ t.timesFit p = true := by
  unfold stepWith
  cases stepAt p.hbInterval s with
  | next u => dsimp only; split_ifs <;> grind
  | fault f => simp
  | refused r => simp

end Sys2Proof.Machine
end

