-- ==== Sys2Proof/Laws/PerInstr.lean ====
section
/-! SUPPORT. Statements made per instruction: the word of a well-formed instruction matches a row of the printed
command map that names its operation (30_encoding.md R89). -/

namespace Sys2Proof.Laws.EncodesInOwnRow

/-- The word of a well-formed instruction lies in a row of its own operation. -/
def Statement (i : Instr) : Prop :=
  WellFormed i → commandRows.any (fun row => row.matches (encode i) && decide (row.opcode = i.opcode)) = true

theorem feedStart : Statement .feedStart := fun _ => by decide

theorem feedEnd : Statement .feedEnd := fun _ => by decide

theorem feedHex (n : Nibble) (c : LetterCase) : Statement (.feedHex n c) := by
  revert n; cases c <;> unfold Statement <;> decide

set_option maxRecDepth 10000 in
theorem feedGarbage (b : Byte) : Statement (.feedGarbage b) := by
  revert b; unfold Statement; decide

set_option maxRecDepth 10000 in
theorem tick (ignored : Byte) : Statement (.tick ignored) := by
  revert ignored; unfold Statement; decide

set_option maxRecDepth 10000 in
theorem sessionReset (ignored : Byte) : Statement (.sessionReset ignored) := by
  revert ignored; unfold Statement; decide

set_option maxRecDepth 10000 in
theorem reserved (ignored : Byte) : Statement (.reserved ignored) := by
  revert ignored; unfold Statement; decide

end Sys2Proof.Laws.EncodesInOwnRow
end

