-- ==== Sys2Proof/Laws/Sequencer.lean ====
section
/-! SUPPORT. What a host action can do, said once. -/

namespace Sys2Proof.Machine

/-- A host action that goes on changes the host alone, or presents a command, or answers a request to reset or
construct the block. -/
theorem hostStep_cases (hb : Time) (s t : State) (h : hostStep hb s = .next t) :
    (∃ q, t = { s with seq := q }) ∨
    (∃ q w now, t = State.present w now { s with seq := q }) ∨
    (s.seq.loc = .idle ∧ ∃ q rest, t = State.blockReset { s with seq := q } ∧
      (s.seq.calls = .blockReset :: rest ∨
        (s.seq.calls = .construct hb :: rest ∧ s.seq.transport = .available))) := by
  unfold hostStep at h
  split at h
  · rename_i hl
    unfold hostCall at h
    split at h
    · exact .inl ⟨_, (Host.Outcome.next.inj h).symm⟩
    · exact .inr (.inl ⟨_, _, _, (Host.Outcome.next.inj h).symm⟩)
    · exact .inl ⟨_, (Host.Outcome.next.inj h).symm⟩
    · exact .inl ⟨_, (Host.Outcome.next.inj h).symm⟩
    · rename_i presented rest hc
      unfold State.construct at h
      split at h
      · split at h
        · rename_i he
          exact .inr (.inr ⟨hl, _, rest, (Host.Outcome.next.inj h).symm, .inr ⟨he ▸ hc, ‹_›⟩⟩)
        · cases h
      · cases h
      · cases h
    · rename_i rest hc
      exact .inr (.inr ⟨hl, _, rest, (Host.Outcome.next.inj h).symm, .inl hc⟩)
    · exact .inl ⟨_, (Host.Outcome.next.inj h).symm⟩
    · exact .inr (.inl ⟨_, _, _, (Host.Outcome.next.inj h).symm⟩)
    · exact .inl ⟨_, (Host.Outcome.next.inj h).symm⟩
  · rename_i timeout _
    cases timeout
    · exact .inl ⟨_, (Host.Outcome.next.inj h).symm⟩
    · exact .inl ⟨_, (Host.Outcome.next.inj h).symm⟩
  · exact .inl ⟨_, (Host.Outcome.next.inj h).symm⟩
  · unfold hostPoll at h
    split at h
    · exact .inr (.inl ⟨_, _, _, (Host.Outcome.next.inj h).symm⟩)
    · exact .inl ⟨_, (Host.Outcome.next.inj h).symm⟩
  · exact .inr (.inl ⟨_, _, _, (Host.Outcome.next.inj h).symm⟩)
  · exact .inl ⟨_, (Host.Outcome.next.inj h).symm⟩
  · unfold hostActs at h
    split at h
    · exact .inl ⟨_, (Host.Outcome.next.inj h).symm⟩
    · exact .inl ⟨_, (Host.Outcome.next.inj h).symm⟩
    · exact .inl ⟨_, (Host.Outcome.next.inj h).symm⟩
    · split at h
      · exact .inr (.inl ⟨_, _, _, (Host.Outcome.next.inj h).symm⟩)
      · cases h

/-- READ_ONE that sets up is READ_ONE that runs. -/
theorem HostLoc.inReadOne_of_settingUp {l : HostLoc} (h : l.settingUp = true) : l.inReadOne = true := by
  cases l <;> simp_all [HostLoc.settingUp, HostLoc.inReadOne]

end Sys2Proof.Machine
end

