-- ==== Sys2Proof/Tests/Slice0.lean ====
section
/-! SUPPORT. The model's own tests: ill-formed terms, command words written out from the spec's encoding, single
steps whose results spec/95_test_vectors.md gives, and for every statement with hypotheses a state that meets them. -/

namespace Sys2Proof.Tests

open Sys2Proof Sys2Proof.Machine

/-! ## Ill-formed terms -/

theorem test_wellformed_refuses_lower_case_decimal : ¬ WellFormed (.feedHex 5 .lower) := by decide

theorem test_wellformed_refuses_lower_case_nine : ¬ WellFormed (.feedHex 9 .lower) := by decide

theorem test_wellformed_refuses_hex_digit_as_garbage : ¬ WellFormed (.feedGarbage 0x30) := by decide

theorem test_wellformed_refuses_lower_hex_as_garbage : ¬ WellFormed (.feedGarbage 0x66) := by decide

theorem test_wellformed_refuses_marker_as_garbage :
    ¬ WellFormed (.feedGarbage 0x02) ∧ ¬ WellFormed (.feedGarbage 0x03) := by decide

theorem test_wellformed_accepts :
    WellFormed .feedStart ∧ WellFormed .feedEnd ∧ WellFormed (.feedHex 5 .upper) ∧ WellFormed (.feedHex 10 .lower) ∧
    WellFormed (.feedGarbage 0x67) ∧ WellFormed (.tick 0xFF) ∧ WellFormed (.sessionReset 0) ∧
    WellFormed (.reserved 0xA5) := by decide

/-! ## Words written out bit by bit, kind then byte (30_encoding.md R80 to R84, 95_test_vectors.md 2.1) -/

theorem test_decode_feed_start : decode 0b0000000010 = .feedStart := by decide

theorem test_decode_feed_end : decode 0b0000000011 = .feedEnd := by decide

theorem test_decode_feed_hex_decimal : decode 0b0000111001 = .feedHex 9 .upper := by decide

theorem test_decode_feed_hex_letters :
    decode 0b0001000001 = .feedHex 10 .upper ∧ decode 0b0001100110 = .feedHex 15 .lower := by decide

theorem test_decode_feed_garbage_edges :
    decode 0b0000000001 = .feedGarbage 0x01 ∧ decode 0b0000000100 = .feedGarbage 0x04 ∧
    decode 0b0000101111 = .feedGarbage 0x2F ∧ decode 0b0000111010 = .feedGarbage 0x3A ∧
    decode 0b0001000000 = .feedGarbage 0x40 ∧ decode 0b0001000111 = .feedGarbage 0x47 ∧
    decode 0b0001100000 = .feedGarbage 0x60 ∧ decode 0b0001100111 = .feedGarbage 0x67 := by decide

theorem test_decode_feed_garbage_high : decode 0b0010110000 = .feedGarbage 0xB0 := by decide

theorem test_decode_tick : decode 0b0100000000 = .tick 0 ∧ decode 0b0101000010 = .tick 0x42 := by decide

theorem test_decode_session_reset : decode 0b1011111111 = .sessionReset 0xFF := by decide

theorem test_decode_reserved : decode 0b1110100101 = .reserved 0xA5 := by decide

theorem test_table_word : decodeTableWord 16 0x046 = some (.feedHex 15 .upper) := by decide

theorem test_table_word_wider_than_port : decodeTableWord 16 0x400 = none := by decide

/-- 95_test_vectors.md, the command words of packet A and of its lower-case form A'. -/
theorem test_packet_words :
    (StreamItem.pktFor 0x67 0x003B51C6 0).expand.map Command.word =
      [0x002, 0x036, 0x037, 0x030, 0x030, 0x033, 0x042, 0x035, 0x031, 0x043, 0x036, 0x043, 0x042, 0x003] ∧
    (encodePacket 0x67 0x003B51C6 0xCB .lower).map (commandWord 0) =
      [0x002, 0x036, 0x037, 0x030, 0x030, 0x033, 0x062, 0x035, 0x031, 0x063, 0x036, 0x063, 0x062, 0x003] := by
  decide

/-! ## Small states -/

/-- The digits of A: `67003B51C6CB`. -/
def digitsA : Vector Nibble 12 := #v[6, 7, 0, 0, 3, 0xB, 5, 1, 0xC, 6, 0xC, 0xB]

/-- The digits of X: `68003B51C6CB`, whose checksum is wrong. -/
def digitsX : Vector Nibble 12 := #v[6, 8, 0, 0, 3, 0xB, 5, 1, 0xC, 6, 0xC, 0xB]

/-- The digits of B: `77103B51C6CB`. -/
def digitsB : Vector Nibble 12 := #v[7, 7, 1, 0, 3, 0xB, 5, 1, 0xC, 6, 0xC, 0xB]

/-- Record A. -/
def cardA : CardRecord := { type := 103, value := 3887558, checksum := 203, isValid := true }

/-- Record X. -/
def cardX : CardRecord := { type := 104, value := 3887558, checksum := 203, isValid := false }

/-- Record B. -/
def cardB : CardRecord := { type := 119, value := 272323014, checksum := 203, isValid := true }

/-- Reset with a time on the port. -/
def idleAt (now : Time) : State := { State.reset with cmdNow := now }

/-- A full buffer and an empty session. -/
def full (digits : Vector Nibble 12) (now : Time) : State := { idleAt now with faBuf := digits, faCnt := 12 }

/-- Card A held since 13, as most rows of 95_test_vectors.md 2.4 to 2.6 start. -/
def holding (s : State) : State := { s with csCardP := true, csCard := cardA, csLastP := true, csLastT := 13 }

/-- The host at a place of its pseudocode. -/
def hostAt (loc : HostLoc) : State := { idleAt 0 with seq := { Sequencer.initial with loc := loc, stops := [false] } }

/-- The idle host with one request of its caller. -/
def asked (call : HostCall) : State := { idleAt 0 with seq := { Sequencer.initial with calls := [call] } }

/-- The next state, where there is one. -/
def nextOf (o : Host.Outcome State Fault Refusal) : Option State :=
  match o with
  | .next t => some t
  | .fault _ => none
  | .refused _ => none

/-! ## Records -/

/-- 95_test_vectors.md, the four records: their `REC` values. -/
theorem test_records :
    (recordOf digitsA).bits = 0xce0076a38d97 ∧ (recordOf digitsX).bits = 0xd00076a38d96 ∧
    (recordOf digitsB).bits = 0xee2076a38d97 := by decide

/-- DC10 and DC16: the same digits with a wrong and with the right checksum. -/
theorem test_decode_fragment :
    (decodeNibbles [0, 1, 0, 2, 0, 3, 0, 4, 0, 5, 15, 15]).map CardRecord.bits = some 0x20406080bfe ∧
    (decodeNibbles [0, 1, 0, 2, 0, 3, 0, 4, 0, 5, 0, 1]).map CardRecord.bits = some 0x20406080a03 := by decide

/-- DC1 to DC3. -/
theorem test_decode_other_lengths :
    decodeFragment .overlong = none ∧ decodeNibbles [0, 1, 0, 2, 0, 3, 0, 4] = none ∧
    decodeNibbles [0, 1, 2, 3, 4, 5, 6, 7, 8, 9, 10, 11, 12] = none := by decide

/-! ## One command each -/

/-- FR8 with FEED_START for the marker, and SF5: a new card replaces A without a removal. -/
theorem test_feed_start_replaces_card :
    (nextOf (exec .feedStart (holding (full digitsB 20)))).map
        (fun t => (t.faCnt, t.csCard, t.csLastT, t.ev, t.eventPort)) =
      some (0, cardB, 20, [.inserted cardB], ⟨true, 0b001, 0xee2076a38d97⟩) := by decide

/-- SF2: the card again only refreshes. -/
theorem test_feed_start_suppresses_repeat :
    (nextOf (exec .feedStart (holding (full digitsA 20)))).map (fun t => (t.csCard, t.csLastT, t.ev)) =
      some (cardA, 20, []) := by decide

/-- FR8: an END without a START. -/
theorem test_feed_end_inserts :
    (nextOf (exec .feedEnd (full digitsA 13))).map (fun t => (t.faCnt, t.csCardP, t.csLastT, t.eventPort)) =
      some (0, true, 13, ⟨true, 0b001, 0xce0076a38d97⟩) := by decide

/-- SF3: an invalid record is reported and writes no session register. -/
theorem test_feed_end_reports_invalid :
    (nextOf (exec .feedEnd (holding (full digitsX 20)))).map (fun t => (t.csCard, t.csLastT, t.eventPort)) =
      some (cardA, 13, ⟨true, 0b011, 0xd00076a38d96⟩) := by decide

/-- FR4. -/
theorem test_feed_hex_appends :
    (nextOf (exec (.feedHex 6 .upper) (idleAt 0))).map (fun t => (t.faCnt, t.faBuf[0], t.ev)) = some (1, 6, []) := by
  decide

/-- FR6. -/
theorem test_feed_hex_saturates :
    (nextOf (exec (.feedHex 0 .upper) (full digitsA 0))).map (fun t => (t.faCnt, t.faBuf, t.ev)) =
      some (13, digitsA, []) := by decide

/-- FR9. -/
theorem test_feed_garbage_resyncs :
    (nextOf (exec (.feedGarbage 0x58) { full digitsA 0 with faCnt := 4 })).map (fun t => (t.faCnt, t.ev, t.eventPort)) =
      some (0, [.garbage 0x58], ⟨true, 0b100, 0x58⟩) := by decide

/-- FR12. -/
theorem test_feed_garbage_on_empty_buffer :
    (nextOf (exec (.feedGarbage 0xFF) (idleAt 0))).map (fun t => (t.faCnt, t.eventPort)) =
      some (0, ⟨true, 0b100, 0xFF⟩) := by decide

/-- T3: at exactly the interval the card stays. -/
theorem test_tick_at_interval :
    (nextOf (execAt 500 (.tick 0) (holding (idleAt 513)))).map (fun t => (t.csCardP, t.csLastP, t.ev)) =
      some (true, true, []) := by decide

/-- T4: one unit later it is removed. -/
theorem test_tick_past_interval :
    (nextOf (execAt 500 (.tick 0) (holding (idleAt 514)))).map (fun t => (t.csCardP, t.csLastP, t.eventPort)) =
      some (false, false, ⟨true, 0b010, 0xce0076a38d97⟩) := by decide

/-- SR1, with a buffer that stays. -/
theorem test_session_reset :
    (nextOf (exec (.sessionReset 0) (holding { full digitsA 0 with faCnt := 6 }))).map
        (fun t => (t.csCardP, t.csLastP, t.faCnt, t.ev)) = some (false, false, 6, []) := by decide

/-- RV2. -/
theorem test_reserved :
    (nextOf (exec (.reserved 0xA5) (holding { full digitsA 0 with faCnt := 5 }))).map
        (fun t => (t.fltRsvd, t.faCnt, t.csCardP, t.csCard, t.ev)) = some (true, 5, true, cardA, []) := by decide

/-! ## One machine step each -/

/-- A step runs the word on the port and the host takes the event. -/
theorem test_step_runs_word :
    (nextOf (step ((full digitsA 13).withFetchWord 16 0x003))).map (fun t => (t.cmdValid, t.seq.sink)) =
      some (false, [.inserted cardA]) := by decide

/-- The word right after reset: FR4 as a step. -/
theorem test_step_first_after_reset :
    (nextOf (step (State.reset.withFetchWord 16 0x036))).map (fun t => (t.faCnt, t.faBuf[0])) = some (1, 6) := by
  decide

/-- SEQ1's entry: READ_ONE clears the session before it reads. -/
theorem test_read_one_issues_reset :
    (nextOf (step (asked (.readOne (some 0))))).map (fun t => (t.cmdValid, t.cmdWord, t.seq.stop)) =
      some (true, 0x200, false) := by decide

/-- SEQ1's check: 100 is not before 100. -/
theorem test_read_one_times_out_at_deadline :
    (nextOf (step { hostAt (.top .readOne) with
        seq := { Sequencer.initial with
          loc := .top .readOne, clock := 100, deadline := some 100, stops := [false], advances := [0] } })).map
        (fun t => (t.seq.loc, t.seq.returns)) = some (.idle, [.card none]) := by decide

/-- P5's first check: 1000 is before 1500. -/
theorem test_read_one_goes_on_before_deadline :
    (nextOf (step { hostAt (.top .readOne) with
        seq := { Sequencer.initial with
          loc := .top .readOne, clock := 1000, deadline := some 1500, stops := [false], advances := [0] } })).map
        (fun t => (t.seq.loc, t.seq.returns)) = some (.poll .readOne, []) := by decide

/-- P7, iteration 14: the END byte that completes A sets the result and the stop. -/
theorem test_read_one_watcher :
    (nextOf (step ({ full digitsA 24 with seq := { Sequencer.initial with loc := .tick .readOne } }.withFetchWord 16 0x003))).map
        (fun t => (t.seq.result, t.seq.stop)) = some (some cardA, true) := by decide

/-- SEQ6: a stop set before entry is cleared. -/
theorem test_run_events_clears_stop :
    (nextOf (step { asked .runEvents with
        seq := { Sequencer.initial with calls := [.runEvents], stop := true } })).map
        (fun t => (t.seq.stop, t.seq.loc)) = some (false, .top .events) := by decide

/-- 44_poll_loop.md R183: a hook that issues a BYTE is refused. -/
theorem test_hook_outside_spec_refused :
    nextOf (step (hostAt (.acts .events [.issue 0x030]))) = none := by decide

/-- RV4: a block reset clears the fault bit. -/
theorem test_block_reset_clears_fault :
    (nextOf (step { asked .blockReset with fltRsvd := true })).map (fun t => t.fltRsvd) = some false := by decide

/-! ## A state for the hypotheses of each statement, clause by clause

A hypothesis of the form `exec i s = .next t` is met by every instruction in every state, so its witness is the state
the equation names. -/

theorem witness_DecodeOfEncode :
    WellFormed (.feedHex 10 .lower) ∧ WellFormed (.feedHex 0 .upper) ∧ WellFormed (.feedGarbage 0xFF) := by decide

theorem witness_ByteClassesPartition :
    (0x80 : Byte) ≤ 0x80 ∧ classify 0x80 = .garbage ∧ hexValue 0x30 = some 0 ∧ hexValue 0x66 = some 15 := by decide

theorem witness_StepRunsDecodedCommand :
    ((idleAt 0).withFetchWord 16 0x036).cmdValid = true ∧
    decode ((idleAt 0).withFetchWord 16 0x036).cmdWord = .feedHex 6 .upper ∧
    (∃ t, exec (.feedHex 6 .upper) ((idleAt 0).withFetchWord 16 0x036) = .next t) ∧
    ∃ t, execAt 500 (.feedHex 6 .upper) ((idleAt 0).withFetchWord 16 0x036) = .next t :=
  ⟨by decide, by decide, ⟨_, rfl⟩, _, rfl⟩

theorem witness_FetchWordIsRunNext :
    decodeTableWord 16 0x3FF = some (.reserved 0xFF) ∧ decodeTableWord 16 0x000 = some (.feedGarbage 0) := by decide

theorem witness_AtMostOneEventPerCommand :
    (∃ t, exec (.tick 0) (idleAt 513) = .next t ∧ t.evPort = none) ∧
    ∃ t, exec .feedEnd (full digitsA 13) = .next t ∧ t.evPort = some (.inserted cardA) :=
  ⟨⟨_, rfl, by decide⟩, _, rfl, by decide⟩

/-- A command; a command that is no TICK; a host action that is no construction; and a construction at the parameter. -/
theorem witness_CommandsLeaveHostAndConfigAlone :
    (∃ t, execAt 500 (.tick 0) (holding (idleAt 514)) = .next t) ∧ Instr.opcode .feedEnd ≠ .tick ∧
    (((full digitsA 13).withFetchWord 16 3).cmdValid = true ∧
      (decode ((full digitsA 13).withFetchWord 16 3).cmdWord).opcode ≠ .tick) ∧
    ((asked .blockReset).cmdValid = false ∧ (asked .blockReset).seq.calls = [.blockReset]) ∧
    (asked (.construct 500)).seq.calls = [.construct 500] ∧
    (nextOf (stepWith ⟨500, 9⟩ (asked (.construct 500)))).isSome = true :=
  ⟨⟨_, rfl⟩, by decide, by decide, by decide, by decide, by decide⟩

/-- 70_reset_and_hazards.md R238: another interval than the run's is refused. -/
theorem test_construct_with_other_interval_refused :
    stepWith ⟨500, 9⟩ (asked (.construct 300)) = .refused .intervalChanged := by rfl

theorem witness_MarkerOnEmptyBuffer : (idleAt 0).faCnt = 0 := by decide

/-- The malformed lengths at the edges of their range: 1, 11 and 13. -/
theorem witness_MarkerDropsMalformedFragment :
    ∀ n : Fin 14, n = 1 ∨ n = 11 ∨ n = 13 →
      { full digitsA 0 with faCnt := n }.faCnt ≠ 0 ∧ { full digitsA 0 with faCnt := n }.faCnt ≠ 12 := by decide

theorem witness_MarkerReportsInvalidRecord :
    (full digitsX 20).faCnt = 12 ∧ (recordOf (full digitsX 20).faBuf).isValid = false := by decide

/-- With no card, and with another card held. -/
theorem witness_MarkerInsertsNewCard :
    ((full digitsA 13).faCnt = 12 ∧ (recordOf (full digitsA 13).faBuf).isValid = true ∧
      (full digitsA 13).csCardP = false) ∧
    (holding (full digitsB 20)).faCnt = 12 ∧ (recordOf (holding (full digitsB 20)).faBuf).isValid = true ∧
      (holding (full digitsB 20)).csCard ≠ recordOf (holding (full digitsB 20)).faBuf := by decide

theorem witness_MarkerSuppressesRepeat :
    (holding (full digitsA 20)).faCnt = 12 ∧ (recordOf (holding (full digitsA 20)).faBuf).isValid = true ∧
    (holding (full digitsA 20)).csCardP = true ∧
    (holding (full digitsA 20)).csCard = recordOf (holding (full digitsA 20)).faBuf := by decide

theorem witness_ValidReadRefreshesHeartbeat :
    (holding (full digitsA 20)).faCnt = 12 ∧ (recordOf (holding (full digitsA 20)).faBuf).isValid = true := by decide

/-- The counts at the edges: 0 and 11 append. -/
theorem witness_FeedHexAppends :
    (idleAt 0).faCnt.val < 12 ∧ (idleAt 0).faCnt = 0 ∧ { full digitsA 0 with faCnt := 11 }.faCnt.val < 12 := by decide

/-- The counts at the edges: 12 and 13 saturate. -/
theorem witness_FeedHexSaturates :
    12 ≤ (full digitsA 0).faCnt.val ∧ 12 ≤ { full digitsA 0 with faCnt := 13 }.faCnt.val := by decide

theorem witness_FeedGarbageResyncs : ∃ t, exec (.feedGarbage 0) (full digitsA 0) = .next t := ⟨_, rfl⟩

theorem witness_RegistersHaveOneOwner :
    (∃ t, exec (.reserved 0) (holding (full digitsA 0)) = .next t) ∧ Instr.opcode (.reserved 0) = .reserved ∧
    (∃ t, exec (.feedHex 1 .upper) (holding (full digitsA 0)) = .next t) ∧
    Instr.opcode (.feedHex 1 .upper) = .feedHex ∧
    (∃ t, exec (.tick 0) (holding (full digitsA 0)) = .next t) ∧ Instr.opcode (.tick 0) = .tick :=
  ⟨⟨_, rfl⟩, rfl, ⟨_, rfl⟩, rfl, ⟨_, rfl⟩, rfl⟩

theorem witness_OtherLengthsDecodeToNothing :
    ([] : List Nibble).length ≠ 12 ∧ (digitsA.toList ++ [0]).length ≠ 12 ∧ digitsA.toList.tail.length ≠ 12 := by decide

theorem witness_DecodeIsInjective : digitsA.toList.length = 12 ∧ digitsX.toList.length = 12 := by decide

/-- A change in the first nibble and in the last. -/
theorem witness_SingleNibbleErrorDetected :
    decodeFragment (.exact digitsA.toList) = some cardA ∧ cardA.isValid = true ∧ digitsA[(0 : Fin 12)] ≠ 7 ∧ digitsA[(11 : Fin 12)] ≠ 0xA := by decide

/-- One unit past the interval, exactly at it, without a last valid read, and with the heartbeat disabled. -/
theorem witness_TickRemovesLapsedCard :
    (0x142 : CmdWord) &&& 0x300 = 0x100 ∧
    ((0 : Time) < 500 ∧ (holding (idleAt 514)).csLastP = true ∧
      (holding (idleAt 514)).csLastT + 500 < (holding (idleAt 514)).cmdNow) ∧
    (holding (idleAt 513)).cmdNow ≤ (holding (idleAt 513)).csLastT + 500 ∧ (idleAt 10000).csLastP = false ∧
    (nextOf (execAt 0 (.tick 0) (holding (idleAt 514)))).map (fun t => t.csCardP) = some true := by decide

theorem witness_RemovalFiresOnce :
    ∃ t, execAt 500 (.tick 0) (holding (idleAt 514)) = .next t ∧ t.evPort ≠ none := ⟨_, rfl, by decide⟩

theorem witness_PresenceExactAfterTick :
    (holding (idleAt 513)).SessionInv ∧ (0 : Time) < 500 ∧
    ∃ t, execAt 500 (.tick 0) (holding (idleAt 513)) = .next t ∧ t.csCardP = true := ⟨by decide, by decide, _, rfl, by decide⟩

/-- The times 513 and 514 stand on either side of the lapse. -/
theorem witness_LapseRemovesExactlyOnce :
    (holding (idleAt 0)).SessionInv ∧ (holding (idleAt 0)).csCardP = true ∧ (0 : Time) < 500 ∧
    (∃ now ∈ [100, 514, 2000], (holding (idleAt 0)).csLastT + 500 < now) ∧
    ∀ now ∈ [100, 513], now ≤ (holding (idleAt 0)).csLastT + 500 := by decide

theorem witness_MonotoneTimeNeverSaturates :
    HostDuty.monotone ([⟨0x003, 20⟩] ++ [⟨0x100, 20⟩]) ∧ kindField 0x100 < 2 ∧
    (∀ d ∈ [Command.mk 0x003 20] ++ [⟨0x100, 20⟩], kindField d.word < 2 → (holding (full digitsA 0)).csLastT ≤ d.now) ∧
    ∃ t, runCommands 500 [⟨0x003, 20⟩] (holding (full digitsA 0)) = .next t := ⟨by decide, by decide, by decide, _, rfl⟩

/-- The largest time of 10 bits, read by a whole step, and the same step with one bit too few. -/
theorem witness_LastReadFitsRegister :
    HostDuty.timesFit 10 [⟨0x003, 1023⟩] ∧ (full digitsA 0).csLastT < 2 ^ 10 ∧
    (∃ t, runCommands 500 [⟨0x003, 1023⟩] (full digitsA 0) = .next t) ∧
    (∃ t, stepAt 500 ((full digitsA 1023).withFetchWord 16 3) = .next t ∧
      t.suppliedTimesFit ⟨500, 10⟩ = true ∧ stepWith ⟨500, 10⟩ ((full digitsA 1023).withFetchWord 16 3) = .next t) ∧
    stepWith ⟨500, 9⟩ ((full digitsA 1023).withFetchWord 16 3) = .refused .timeOutsideRegister :=
  ⟨by decide, by decide, ⟨_, rfl⟩, ⟨_, rfl, by decide, rfl⟩, rfl⟩

/-- 70_reset_and_hazards.md R245: READ_ONE's `clock() + timeout` of 2^10 does not fit 10 bits. -/
theorem test_deadline_outside_register_refused :
    stepWith ⟨500, 10⟩ { hostAt (.deadline (some 500)) with
        seq := { Sequencer.initial with loc := .deadline (some 500), clock := 524, advances := [0] } } =
      .refused .timeOutsideRegister := by rfl

theorem witness_SessionResetEmptiesSession :
    (0x2FF : CmdWord) &&& 0x300 = 0x200 ∧ ∃ t, exec (.sessionReset 0) (holding (idleAt 0)) = .next t :=
  ⟨by decide, _, rfl⟩

theorem witness_ReservedSetsFaultBit : (0x3A5 : CmdWord) &&& 0x300 = 0x300 := by decide

theorem witness_FirstReadAfterSessionResetInserts :
    (∃ t, exec (.sessionReset 0) (holding (full digitsA 20)) = .next t) ∧ (holding (full digitsA 20)).faCnt = 12 ∧
    (recordOf (holding (full digitsA 20)).faBuf).isValid = true := ⟨⟨_, rfl⟩, by decide, by decide⟩

theorem witness_FaultBitIsStickyAndHarmless :
    (∃ t, exec .feedStart { full digitsA 0 with fltRsvd := true } = .next t) ∧
    (∃ t, step { hostAt .idle with fltRsvd := true } = .next t) ∧
    { hostAt .idle with fltRsvd := true }.restartsBlock = false ∧
    { hostAt .idle with fltRsvd := true }.fltRsvd = true := ⟨⟨_, rfl⟩, ⟨_, rfl⟩, by decide, by decide⟩

theorem witness_ConditionsHaveTheirEffects :
    conditionOf (.feedGarbage 0x58) (idleAt 0) = some (.resync 0x58) ∧
    conditionOf .feedEnd { full digitsA 0 with faCnt := 13 } = some .malformedFragment ∧
    conditionOf .feedStart (full digitsX 0) = some (.checksumMismatch cardX) ∧
    conditionOf (.reserved 0xA5) (idleAt 0) = some (.reservedCommand 0x3A5) ∧
    ∃ t, exec (.reserved 0xA5) (idleAt 0) = .next t := ⟨by decide, by decide, by decide, by decide, _, rfl⟩

theorem witness_BlockResetValues :
    (asked .blockReset).cmdValid = false ∧ (asked .blockReset).seq.loc = .idle ∧
    (asked .blockReset).seq.calls = [.blockReset] := by decide

/-- Each of the three transports, an interval that is the parameter and one that is not, the interface's parameter,
and each request to open or close the transport. -/
theorem witness_ConstructionNeedsTransport :
    (∀ tr ∈ [Transport.available, Transport.unavailable, Transport.closed],
      let s := { asked (.construct 500) with
        seq := { Sequencer.initial with calls := [.construct 500], transport := tr } }
      s.cmdValid = false ∧ s.seq.loc = .idle ∧ s.seq.calls = [.construct 500] ∧ s.seq.transport = tr) ∧
    ((500 : Time) = 500 ∧ (500 : Time) ≠ 300) ∧
    ((asked (.construct Config.hbInterval)).seq.calls = [.construct Config.hbInterval] ∧
      (asked (.construct Config.hbInterval)).seq.transport = .available) ∧
    (∀ b, (asked (.openTransport b)).seq.calls = [.openTransport b]) ∧
    (asked .closeTransport).seq.calls = [.closeTransport] :=
  ⟨by decide, by decide, ⟨rfl, rfl⟩, by decide, by decide⟩

/-- 60_exceptions.md R205: a transport that was closed cannot be constructed on. -/
theorem test_construct_after_close :
    ((nextOf (step { asked .closeTransport with
        seq := { Sequencer.initial with calls := [.closeTransport, .construct 500] } })).bind
      fun t => nextOf (step t)) = none := by decide

theorem witness_SessionInvKeptByEveryStep :
    ((holding (idleAt 514)).withFetchWord 16 0x100).SessionInv ∧
    ∃ t, step ((holding (idleAt 514)).withFetchWord 16 0x100) = .next t := ⟨by decide, _, rfl⟩

theorem witness_HistoryStaysSound :
    { (holding (full digitsX 20)).withFetchWord 16 0x003 with ev := [.inserted cardA] }.SessionInv ∧
    { (holding (full digitsX 20)).withFetchWord 16 0x003 with ev := [.inserted cardA] }.HistorySound ∧
    ∃ t, step { (holding (full digitsX 20)).withFetchWord 16 0x003 with ev := [.inserted cardA] } = .next t :=
  ⟨by decide, by decide, _, rfl⟩

theorem witness_HistoryOnlyGrows :
    ((full digitsA 13).withFetchWord 16 0x003).restartsBlock = false ∧
    ∃ t, step ((full digitsA 13).withFetchWord 16 0x003) = .next t ∧ t.ev = [.inserted cardA] :=
  ⟨by decide, _, rfl, by decide⟩

/-- Two different states that agree on all the spec gives a value: stale nibbles, a stale card, a stale time. -/
theorem witness_UnspecifiedPayloadsNeverMatter :
    (idleAt 0).SessionInv ∧ (idleAt 0).SameSpecified { idleAt 0 with faBuf := digitsA, csCard := cardX, csLastT := 7 } ∧
    idleAt 0 ≠ { idleAt 0 with faBuf := digitsA, csCard := cardX, csLastT := 7 } ∧
    ∃ t, exec .feedEnd (idleAt 0) = .next t := ⟨by decide, by decide, by decide, _, rfl⟩

/-- A full buffer, and a count of 13 standing for 14 nibbles. -/
theorem witness_BlockRefinesSource :
    (holding (full digitsA 20)).SessionInv ∧
    (holding (full digitsA 20)).StandsFor
      { buffer := digitsA.toList, currentCard := some cardA, lastValidReadAt := some 13, out := [] } ∧
    { full digitsA 20 with faCnt := 13 }.StandsFor
      { buffer := digitsA.toList ++ [0, 1], currentCard := none, lastValidReadAt := none, out := [] } := by decide

theorem witness_HostActionsLeaveBlockAlone :
    (hostAt (.tick .events)).cmdValid = false ∧ (hostAt (.tick .events)).restartsBlock = false ∧
    ∃ t, step (hostAt (.tick .events)) = .next t := ⟨by decide, by decide, _, rfl⟩

/-- A TICK issued at a clock reading. -/
theorem witness_ClockReadingsNeverDecrease :
    (hostAt (.tick .events)).cmdValid = false ∧ (hostAt (.tick .events)).seq.loc ≠ .idle ∧
    ∃ t, step (hostAt (.tick .events)) = .next t ∧ t.cmdValid = true ∧ kindField t.cmdWord < 2 :=
  ⟨by decide, by decide, _, rfl, by decide, by decide⟩

/-- Each of the four places, and a poll with and without a byte. -/
theorem witness_IterationOrder :
    (hostAt (.poll .events)).cmdValid = false ∧ (hostAt (.poll .events)).seq.loc = .poll .events ∧
    { (hostAt (.poll .events)).seq with polls := [some 0x36] }.drawPoll.1 = some 0x36 ∧
    { (hostAt (.poll .events)).seq with polls := [none] }.drawPoll.1 = none ∧
    (hostAt (.tick .readOne)).seq.loc = .tick .readOne ∧ (hostAt (.hook .events)).seq.loc = .hook .events ∧
    (hostAt (.acts .readOne [])).seq.loc = .acts .readOne [] := by decide

theorem witness_StatusPortsMirrorRegisters :
    (holding (hostAt (.acts .events [.readStatus]))).cmdValid = false ∧
    (holding (hostAt (.acts .events [.readStatus]))).seq.loc = .acts .events [.readStatus] ∧
    (holding (hostAt (.acts .events [.readStatus]))).status = ⟨true, cardA, true, 13, false⟩ := by decide

/-- Each action of a hook, and a word at either edge of SESSION_RESET's. -/
theorem witness_HookPowers :
    (hostAt (.acts .events [.readStatus])).cmdValid = false ∧
    (hostAt (.acts .events [.readStatus])).seq.loc = .acts .events [.readStatus] ∧
    (hostAt (.acts .events [.requestStop])).seq.loc = .acts .events [.requestStop] ∧
    (hostAt (.acts .events [.issue 0x200])).seq.loc = .acts .events [.issue 0x200] ∧
    decode 0x200 = .sessionReset 0 ∧ decode 0x2FF = .sessionReset 0xFF ∧
    decode 0x1FF = .tick 0xFF ∧ decode 0x300 = .reserved 0 := by decide

theorem witness_RunEventsStopsAtTop :
    ((asked .runEvents).cmdValid = false ∧ (asked .runEvents).seq.loc = .idle ∧
      (asked .runEvents).seq.calls = [.runEvents]) ∧
    (hostAt (.top .events)).seq.loc = .top .events ∧ (hostAt (.top .events)).seq.drawStop.stop = false ∧
    { (hostAt (.top .events)).seq with stop := true }.drawStop.stop = true := by decide

/-- With a timeout and with none. -/
theorem witness_ReadOneEntry :
    ∀ timeout ∈ [none, some (500 : Time)],
      (asked (.readOne timeout)).cmdValid = false ∧ (asked (.readOne timeout)).seq.loc = .idle ∧
      (asked (.readOne timeout)).seq.calls = [.readOne timeout] := by decide

/-- A step of READ_ONE off its top, a command pending at its top, a stop, no deadline, the deadline reached and the
deadline ahead. -/
theorem witness_ReadOneReturnsOnStopOrDeadline :
    ((hostAt (.tick .readOne)).seq.loc.inReadOne = true ∧ (hostAt (.tick .readOne)).seq.loc ≠ .top .readOne ∧
      ∃ t, step (hostAt (.tick .readOne)) = .next t) ∧
    (((hostAt (.top .readOne)).withFetchWord 16 0x200).seq.loc.inReadOne = true ∧
      ((hostAt (.top .readOne)).withFetchWord 16 0x200).cmdValid = true ∧
      ∃ t, step ((hostAt (.top .readOne)).withFetchWord 16 0x200) = .next t) ∧
    (hostAt (.top .readOne)).cmdValid = false ∧ (hostAt (.top .readOne)).seq.loc = .top .readOne ∧
    { (hostAt (.top .readOne)).seq with stop := true }.drawStop.stop = true ∧
    ((hostAt (.top .readOne)).seq.drawStop.stop = false ∧ (hostAt (.top .readOne)).seq.deadline = none) ∧
    { (hostAt (.top .readOne)).seq with deadline := some 100, clock := 100, advances := [0] }.readClock.1 = 100 ∧
    { (hostAt (.top .readOne)).seq with deadline := some 100, clock := 99, advances := [0] }.readClock.1 < 100 :=
  ⟨⟨by decide, by decide, _, rfl⟩, ⟨by decide, by decide, _, rfl⟩, by decide⟩

theorem witness_ReadOneInvKeptByEveryStep :
    { full digitsA 24 with seq := { Sequencer.initial with loc := .tick .readOne } }.ReadOneInv ∧
    ∃ t, step ({ full digitsA 24 with seq := { Sequencer.initial with loc := .tick .readOne } }.withFetchWord 16 3) =
      .next t := ⟨by decide, _, rfl⟩

/-- READ_ONE between its poll and its tick, A's END byte on the port. -/
def readingA : State :=
  { full digitsA 24 with seq := { Sequencer.initial with loc := .tick .readOne } }.withFetchWord 16 0x003

theorem witness_FirstValidCardWins :
    readingA.ReadOneInv ∧ readingA.ReadOneStarted ∧ readingA.seq.result = none ∧ readingA.cmdValid = true ∧
    decode readingA.cmdWord = .feedEnd ∧ readingA.faCnt = 12 ∧ (recordOf readingA.faBuf).isValid = true := by decide

/-- An insertion in READ_ONE, a garbage report outside a mode, a command without an event. -/
theorem witness_EventsAreForwarded :
    readingA.cmdValid = true ∧
    (∃ t, step readingA = .next t ∧ t.evPort = some (.inserted cardA)) ∧
    (∃ t, step ((idleAt 0).withFetchWord 16 0x058) = .next t ∧ t.evPort = some (.garbage 0x58)) ∧
    ∃ t, step ((idleAt 0).withFetchWord 16 0x036) = .next t ∧ t.evPort = none :=
  ⟨by decide, ⟨_, rfl, by decide⟩, ⟨_, rfl, by decide⟩, _, rfl, by decide⟩

end Sys2Proof.Tests
end

section
/-! PROOFS. O48: equality up to what the spec leaves unspecified is a two-state invariant. Each operation of the
block keeps it, and so does every command. -/

namespace Sys2Proof.Machine

section RelatedStates

variable {s t : State}

/-! ## What related states agree on -/

theorem State.SameSpecified.same_eq (h : s.SameSpecified t) (rec : CardRecord) : s.same rec = t.same rec := by
  obtain ⟨_, _, hcardP, hcard, _⟩ := h
  unfold State.same
  cases hs : s.csCardP with
  | false => rw [← hcardP, hs]; rfl
  | true => rw [← hcardP, hs, hcard hs]

theorem State.SameSpecified.lapsed_eq (h : s.SameSpecified t) (hb now : Time) :
    s.lapsed hb now = t.lapsed hb now := by
  obtain ⟨_, _, _, _, hlastP, hlastT, _⟩ := h
  unfold State.lapsed
  cases hs : s.csLastP with
  | false => rw [← hlastP, hs]; rfl
  | true => rw [← hlastP, hs, hlastT hs]

/-! ## The named operations -/

theorem State.SameSpecified.beginCommand (h : s.SameSpecified t) :
    s.beginCommand.SameSpecified t.beginCommand := by
  obtain ⟨hcnt, hfrag, hcardP, hcard, hlastP, hlastT, hflt, hev, hvalid, hword, hnow, _, hseq⟩ := h
  exact ⟨hcnt, hfrag, hcardP, hcard, hlastP, hlastT, hflt, hev, hvalid, hword, hnow, rfl, hseq⟩

theorem State.SameSpecified.emit (e : Event) (h : s.SameSpecified t) : (s.emit e).SameSpecified (t.emit e) := by
  obtain ⟨hcnt, hfrag, hcardP, hcard, hlastP, hlastT, hflt, hev, hvalid, hword, hnow, _, hseq⟩ := h
  exact ⟨hcnt, hfrag, hcardP, hcard, hlastP, hlastT, hflt, congrArg (· ++ [e]) hev, hvalid, hword, hnow, rfl, hseq⟩

theorem State.SameSpecified.raise (f : CommandFault) (h : s.SameSpecified t) :
    (s.raise f).SameSpecified (t.raise f) := by
  obtain ⟨hcnt, hfrag, hcardP, hcard, hlastP, hlastT, _, hev, hvalid, hword, hnow, hport, hseq⟩ := h
  cases f
  exact ⟨hcnt, hfrag, hcardP, hcard, hlastP, hlastT, rfl, hev, hvalid, hword, hnow, hport, hseq⟩

/-- An empty buffer's fragment is empty whatever nibbles stay behind (10_state.md R34). -/
theorem State.SameSpecified.clearFragment (h : s.SameSpecified t) :
    s.clearFragment.SameSpecified t.clearFragment := by
  obtain ⟨_, _, hcardP, hcard, hlastP, hlastT, hflt, hev, hvalid, hword, hnow, hport, hseq⟩ := h
  exact ⟨rfl, rfl, hcardP, hcard, hlastP, hlastT, hflt, hev, hvalid, hword, hnow, hport, hseq⟩

theorem State.SameSpecified.refresh (now : Time) (h : s.SameSpecified t) :
    (s.refresh now).SameSpecified (t.refresh now) := by
  obtain ⟨hcnt, hfrag, hcardP, hcard, _, _, hflt, hev, hvalid, hword, hnow, hport, hseq⟩ := h
  exact ⟨hcnt, hfrag, hcardP, hcard, rfl, fun _ => rfl, hflt, hev, hvalid, hword, hnow, hport, hseq⟩

theorem State.SameSpecified.setCard (rec : CardRecord) (h : s.SameSpecified t) :
    (s.setCard rec).SameSpecified (t.setCard rec) := by
  obtain ⟨hcnt, hfrag, _, _, hlastP, hlastT, hflt, hev, hvalid, hword, hnow, hport, hseq⟩ := h
  exact ⟨hcnt, hfrag, rfl, fun _ => rfl, hlastP, hlastT, hflt, hev, hvalid, hword, hnow, hport, hseq⟩

/-- Once the present bits are cleared the payloads no longer have to agree (10_state.md R35, R47). -/
theorem State.SameSpecified.clearSession (h : s.SameSpecified t) :
    s.clearSession.SameSpecified t.clearSession := by
  obtain ⟨hcnt, hfrag, _, _, _, _, hflt, hev, hvalid, hword, hnow, hport, hseq⟩ := h
  exact ⟨hcnt, hfrag, rfl, nofun, rfl, nofun, hflt, hev, hvalid, hword, hnow, hport, hseq⟩

/-! ## An append -/

/-- An append to a full or overlong buffer leaves it overlong, with no nibble kept (41_framer.md R110). -/
theorem State.fragment_appendNibble_of_le (n : Nibble) (s : State) (h : 12 ≤ s.faCnt.val) :
    (s.appendNibble n).fragment = .overlong := by
  rw [State.appendNibble_of_le n s h]; rfl

/-- An append counts one nibble more and saturates at 13 (41_framer.md R108, R110). -/
theorem State.appendNibble_faCnt (n : Nibble) (s : State) :
    (s.appendNibble n).faCnt.val = min (s.faCnt.val + 1) 13 := by
  obtain hroom | hfull := Nat.lt_or_ge s.faCnt.val 12
  · rw [State.appendNibble_of_lt n s hroom]; dsimp only; omega
  · rw [State.appendNibble_of_le n s hfull]; dsimp only; omega

/-- The fragment after an append depends on the fragment before it and on no stale nibble. -/
theorem State.fragment_appendNibble_congr (n : Nibble) (hcnt : s.faCnt = t.faCnt) (hfrag : s.fragment = t.fragment) :
    (s.appendNibble n).fragment = (t.appendNibble n).fragment := by
  have hval : s.faCnt.val = t.faCnt.val := congrArg Fin.val hcnt
  by_cases hroom : s.faCnt.val < 12
  · have hroom' : t.faCnt.val < 12 := hval ▸ hroom
    have hlive : s.faBuf.toList.take s.faCnt.val = t.faBuf.toList.take t.faCnt.val := by
      rw [State.fragment_of_le s (by omega), State.fragment_of_le t (by omega)] at hfrag
      exact Fragment.exact.inj hfrag
    rw [State.fragment_appendNibble n s hroom, State.fragment_appendNibble n t hroom', hlive]
  · rw [State.fragment_appendNibble_of_le n s (by omega), State.fragment_appendNibble_of_le n t (by omega)]

theorem State.SameSpecified.appendNibble (n : Nibble) (h : s.SameSpecified t) :
    (s.appendNibble n).SameSpecified (t.appendNibble n) := by
  obtain ⟨hcnt, hfrag, hrest⟩ := h
  have hcnt' : (s.appendNibble n).faCnt = (t.appendNibble n).faCnt :=
    Fin.ext (by rw [State.appendNibble_faCnt, State.appendNibble_faCnt, hcnt])
  exact ⟨hcnt', State.fragment_appendNibble_congr n hcnt hfrag, by simpa using hrest⟩

/-! ## The session, the framer and the heartbeat -/

theorem State.SameSpecified.acceptRecord (rec : CardRecord) (now : Time) (h : s.SameSpecified t) :
    (acceptRecord rec now s).SameSpecified (acceptRecord rec now t) := by
  unfold Machine.acceptRecord
  rw [← h.same_eq rec]
  split
  · exact h.refresh now
  · exact ((h.refresh now).setCard rec).emit _

theorem State.SameSpecified.sessionFragment (r : Option CardRecord) (now : Time) (h : s.SameSpecified t) :
    (sessionFragment r now s).SameSpecified (sessionFragment r now t) := by
  cases r with
  | none => exact h
  | some rec =>
    unfold Machine.sessionFragment
    dsimp only
    split
    · exact h.acceptRecord rec now
    · exact h.emit _

theorem State.SameSpecified.flush (now : Time) (h : s.SameSpecified t) :
    (flush now s).SameSpecified (flush now t) := by
  have ⟨hcnt, hfrag, _⟩ := h
  unfold Machine.flush
  rw [← hcnt, ← hfrag]
  split
  · exact h
  · exact h.clearFragment.sessionFragment _ now

/-- A lapse needs `CS_LAST_P`, with which the session invariant gives a present card: the removed record is one the
spec gives a value (10_state.md R39, 43_session.md R161). -/
theorem State.SameSpecified.heartbeat (hb now : Time) (hinv : s.SessionInv) (h : s.SameSpecified t) :
    (heartbeat hb now s).SameSpecified (heartbeat hb now t) := by
  unfold Machine.heartbeat
  rw [← h.lapsed_eq hb now]
  split
  · next hlapsed =>
    have hlastP : s.csLastP = true := ((State.lapsed_iff hb now s).mp hlapsed).1
    have hcard : s.csCard = t.csCard := by
      obtain ⟨_, _, _, hcard, _⟩ := h
      exact hcard (hinv.1 ▸ hlastP)
    rw [← hcard]
    exact (h.emit _).clearSession
  · exact h

/-! ## Every command -/

theorem State.SameSpecified.cmdNow_eq (h : s.SameSpecified t) : s.cmdNow = t.cmdNow := by
  obtain ⟨_, _, _, _, _, _, _, _, _, _, hnow, _⟩ := h
  exact hnow

theorem State.SameSpecified.execNext (i : Instr) (hinv : s.SessionInv) (h : s.SameSpecified t) :
    (execNext i s).SameSpecified (execNext i t) := by
  cases i with
  | feedStart => rw [execNext_feedStart, execNext_feedStart, ← h.cmdNow_eq]; exact h.beginCommand.flush _
  | feedEnd => rw [execNext_feedEnd, execNext_feedEnd, ← h.cmdNow_eq]; exact h.beginCommand.flush _
  | feedHex n c => exact h.beginCommand.appendNibble n
  | feedGarbage b => exact h.beginCommand.clearFragment.emit _
  | tick ignored =>
    rw [execNext_tick, execNext_tick, ← h.cmdNow_eq]
    exact h.beginCommand.heartbeat _ _ hinv
  | sessionReset ignored => exact h.beginCommand.clearSession
  | reserved ignored => exact h.beginCommand.raise .reservedCommand

end RelatedStates

/-- Settles O48: every command keeps equality up to what is unspecified. -/
theorem unspecifiedPayloadsNeverMatter : Obligations.UnspecifiedPayloadsNeverMatter := by
  unfold Obligations.UnspecifiedPayloadsNeverMatter
  intro i s s' t hinv hsame ht
  obtain rfl : execNext i s = t := Host.Outcome.next.inj ((exec_eq_execNext i s).symm.trans ht)
  exact ⟨execNext i s', exec_eq_execNext i s', hsame.execNext i hinv⟩

end Sys2Proof.Machine
end

section
/-! PROOFS. The step with a command presented, at any value of `HB_INTERVAL`, and O9. -/

namespace Sys2Proof.Machine

theorem execAt_completes (hb : Time) (i : Instr) (s : State) : ∃ t, execAt hb i s = .next t := by
  obtain ⟨_, _, h⟩ | ⟨_, h⟩ := execAt_cases hb i s
  · exact ⟨_, h⟩
  · exact ⟨_, h⟩

theorem stepAt_of_execAt {hb : Time} {s t : State} (hvalid : s.cmdValid = true)
    (h : execAt hb (decode s.cmdWord) s = .next t) : stepAt hb s = .next t.completeCommand := by
  unfold stepAt; rw [if_pos hvalid, h]

/-- What a step that goes on can be: a command run and completed, or a host action. -/
theorem stepAt_cases {hb : Time} {s t : State} (h : stepAt hb s = .next t) :
    (∃ u, s.cmdValid = true ∧ execAt hb (decode s.cmdWord) s = .next u ∧ t = u.completeCommand) ∨
    (s.cmdValid = false ∧ hostStep hb s = .next t) := by
  cases hvalid : s.cmdValid with
  | true =>
    obtain ⟨u, hu⟩ := execAt_completes hb (decode s.cmdWord) s
    exact .inl ⟨u, rfl, hu, Host.Outcome.next.inj (h.symm.trans (stepAt_of_execAt hvalid hu))⟩
  | false => exact .inr ⟨rfl, (stepAt_of_not_valid hb s hvalid).symm.trans h⟩

set_option maxRecDepth 10000 in
theorem decodeByte_wellFormed (b : Byte) : WellFormed (decodeByte b) := by
  revert b; decide

/-- There is no illegal word (30_encoding.md R90). -/
theorem decode_wellFormed (w : CmdWord) : WellFormed (decode w) := by
  unfold decode
  split_ifs
  · exact decodeByte_wellFormed _
  · rfl
  · rfl
  · rfl

/-- Settles O9: with a command presented a step is the command's completion, and no command faults or is refused. -/
theorem stepRunsDecodedCommand : Obligations.StepRunsDecodedCommand := by
  unfold Obligations.StepRunsDecodedCommand
  rintro s _ hvalid rfl
  refine ⟨decode_wellFormed _, fun t ht => ?_, fun f hf => ?_, fun r hr => ?_, fun hb t ht => ?_⟩
  · rw [← execAt_config] at ht
    exact stepAt_of_execAt hvalid ht
  · rw [exec_eq_execNext] at hf; cases hf
  · rw [exec_eq_execNext] at hr; cases hr
  · exact stepAt_of_execAt hvalid ht

end Sys2Proof.Machine
end

section
/-! PROOFS. O36: `CS_LAST_T` only ever takes the value of `CMD_NOW`, so it fits the width that every supplied time
fits; and `stepWith` stops exactly where a time does not. -/

namespace Sys2Proof.Machine

/-! ## What a command writes to `CS_LAST_T` and `CMD_NOW` -/

@[simp] theorem sessionFragment_cmdNow (r : Option CardRecord) (now : Time) (s : State) :
    (sessionFragment r now s).cmdNow = s.cmdNow := by
  obtain ⟨_, h⟩ | ⟨_, _, _, h⟩ | ⟨_, _, _, _, _, h⟩ | ⟨_, _, _, _, h⟩ := sessionFragment_cases r now s <;> simp [h]

theorem sessionFragment_csLastT (r : Option CardRecord) (now : Time) (s : State) :
    (sessionFragment r now s).csLastT = s.csLastT ∨ (sessionFragment r now s).csLastT = now := by
  obtain ⟨_, h⟩ | ⟨_, _, _, h⟩ | ⟨_, _, _, _, _, h⟩ | ⟨_, _, _, _, h⟩ := sessionFragment_cases r now s <;> simp [h]

@[simp] theorem heartbeat_cmdNow (hb now : Time) (s : State) : (heartbeat hb now s).cmdNow = s.cmdNow := by
  obtain ⟨_, h⟩ | ⟨_, h⟩ := heartbeat_cases hb now s <;> simp [h]

@[simp] theorem heartbeat_csLastT (hb now : Time) (s : State) : (heartbeat hb now s).csLastT = s.csLastT := by
  obtain ⟨_, h⟩ | ⟨_, h⟩ := heartbeat_cases hb now s <;> simp [h]

@[simp] theorem execNext_cmdNow (i : Instr) (s : State) : (execNext i s).cmdNow = s.cmdNow := by
  obtain h | ⟨_, _, _, h⟩ | ⟨_, _, h⟩ | ⟨_, _, _, h⟩ | ⟨_, _, h⟩ | ⟨_, _, h⟩ | ⟨_, _, h⟩ := execNext_cases i s <;>
    simp [h]

theorem execNext_csLastT (i : Instr) (s : State) :
    (execNext i s).csLastT = s.csLastT ∨ (execNext i s).csLastT = s.cmdNow := by
  obtain h | ⟨_, _, _, h⟩ | ⟨_, _, h⟩ | ⟨_, _, _, h⟩ | ⟨_, _, h⟩ | ⟨_, _, h⟩ | ⟨_, _, h⟩ := execNext_cases i s
  case inr.inr.inr.inr.inr.inr => rw [h]; exact sessionFragment_csLastT _ _ _
  all_goals exact .inl (by simp [h])

theorem execAt_cmdNow {hb : Time} {i : Instr} {s t : State} (h : execAt hb i s = .next t) : t.cmdNow = s.cmdNow := by
  obtain ⟨_, _, h'⟩ | ⟨_, h'⟩ := execAt_cases hb i s
  · obtain rfl := Host.Outcome.next.inj (h'.symm.trans h)
    exact heartbeat_cmdNow hb _ _
  · obtain rfl := Host.Outcome.next.inj (h'.symm.trans h)
    exact execNext_cmdNow i s

/-- A command keeps `CS_LAST_T` or writes `CMD_NOW` to it (43_session.md R155). -/
theorem execAt_csLastT {hb : Time} {i : Instr} {s t : State} (h : execAt hb i s = .next t) :
    t.csLastT = s.csLastT ∨ t.csLastT = s.cmdNow := by
  obtain ⟨_, _, h'⟩ | ⟨_, h'⟩ := execAt_cases hb i s
  · obtain rfl := Host.Outcome.next.inj (h'.symm.trans h)
    exact .inl (heartbeat_csLastT hb _ _)
  · obtain rfl := Host.Outcome.next.inj (h'.symm.trans h)
    exact execNext_csLastT i s

/-! ## The register along a list of commands -/

theorem runCommand_csLastT {hb : Time} {c : Command} {s t : State} (h : runCommand hb c s = .next t) :
    t.csLastT = s.csLastT ∨ t.csLastT = c.now :=
  execAt_csLastT h

/-- A list of commands that runs on is its first command and then the others. -/
theorem runCommands_cons_next {hb : Time} {c : Command} {cs : List Command} {s t : State}
    (h : runCommands hb (c :: cs) s = .next t) :
    ∃ u, runCommand hb c s = .next u ∧ runCommands hb cs u = .next t := by
  unfold runCommands at h
  split at h
  · exact ⟨_, ‹_›, h⟩
  · cases h
  · cases h

theorem runCommands_csLastT_lt {hb : Time} {bound : Time} {cs : List Command} {s t : State}
    (hcs : ∀ c ∈ cs, c.now < bound) (hs : s.csLastT < bound) (h : runCommands hb cs s = .next t) :
    t.csLastT < bound := by
  induction cs generalizing s with
  | nil => obtain rfl := Host.Outcome.next.inj h; exact hs
  | cons c cs ih =>
    obtain ⟨u, hu, hrest⟩ := runCommands_cons_next h
    obtain ⟨hc, hcs⟩ := List.forall_mem_cons.mp hcs
    refine ih hcs ?_ hrest
    obtain heq | heq := runCommand_csLastT hu
    · rwa [heq]
    · rwa [heq]

/-! ## The register along a step -/

/-- A step keeps `CS_LAST_T`, writes `CMD_NOW` to it, or resets it. -/
theorem stepAt_csLastT {hb : Time} {s t : State} (h : stepAt hb s = .next t) :
    t.csLastT = s.csLastT ∨ t.csLastT = t.cmdNow ∨ t.csLastT = 0 := by
  obtain ⟨u, _, hu, rfl⟩ | ⟨_, hhost⟩ := stepAt_cases h
  · obtain heq | heq := execAt_csLastT hu
    · exact .inl heq
    · exact .inr (.inl (heq.trans (execAt_cmdNow hu).symm))
  · obtain ⟨q, rfl⟩ | ⟨q, w, now, rfl⟩ | ⟨_, q, _, rfl, _⟩ := hostStep_cases hb s t hhost
    · exact .inl rfl
    · exact .inl rfl
    · exact .inr (.inr rfl)

theorem State.suppliedTimesFit_iff (p : Parameters) (s : State) :
    s.suppliedTimesFit p = true ↔
      p.hbInterval < 2 ^ p.tsW ∧ s.cmdNow < 2 ^ p.tsW ∧ s.seq.clock < 2 ^ p.tsW ∧
        ∀ d, s.seq.deadline = some d → d < 2 ^ p.tsW := by
  simp [State.suppliedTimesFit, fitsWidth_iff, Option.all_eq_true, and_assoc]

/-- Where the register fitted before a step and the host's times fit after it, every time fits after it. -/
theorem timesFit_of_stepAt {p : Parameters} {s t : State} (h : stepAt p.hbInterval s = .next t)
    (hs : s.csLastT < 2 ^ p.tsW) (hsupplied : t.suppliedTimesFit p = true) : t.timesFit p = true := by
  refine (State.timesFit_iff p t).mpr ⟨hsupplied, ?_⟩
  obtain ⟨_, hnow, _⟩ := (State.suppliedTimesFit_iff p t).mp hsupplied
  obtain heq | heq | heq := stepAt_csLastT h
  · rwa [heq]
  · rwa [heq]
  · rw [heq]; exact Nat.two_pow_pos _

/-- `stepWith` refuses by name a step that leaves a time the width cannot hold (70_reset_and_hazards.md R245). -/
theorem stepWith_of_not_timesFit {p : Parameters} {s t : State} (h : stepAt p.hbInterval s = .next t)
    (hfit : ¬ t.timesFit p = true) : stepWith p s = .refused .timeOutsideRegister := by
  unfold stepWith; rw [h]; exact if_neg hfit

/-- Settles O36: by induction over the commands, and from what a step can write to `CS_LAST_T`. -/
theorem lastReadFitsRegister : Obligations.LastReadFitsRegister := by
  unfold Obligations.LastReadFitsRegister
  refine ⟨fun hb tsW cs s t hcs hs h => runCommands_csLastT_lt hcs hs h, fun p s t h => ⟨fun hs hsupplied => ?_, ?_⟩⟩
  · exact (stepWith_next_iff p s t).mpr ⟨h, timesFit_of_stepAt h hs hsupplied⟩
  · by_cases hfit : t.timesFit p = true
    · obtain ⟨hsupplied, hlast⟩ := (State.timesFit_iff p t).mp hfit
      obtain ⟨hhb, hnow, hclock, hdeadline⟩ := (State.suppliedTimesFit_iff p t).mp hsupplied
      exact .inl ⟨hhb, hnow, hclock, hlast, hdeadline⟩
    · exact .inr (stepWith_of_not_timesFit h hfit)

end Sys2Proof.Machine
end

section
/-! PROOFS. O44: each operation of the session keeps the session invariant, so every command and every step does. -/

namespace Sys2Proof.Machine

/-- The state a command leads to at any value of the parameter: the heartbeat's, or `exec`'s. -/
theorem eq_of_execAt {hb : Time} {i : Instr} {s t : State} (h : execAt hb i s = .next t) :
    t = heartbeat hb s.cmdNow s.beginCommand ∨ t = execNext i s := by
  obtain ⟨_, _, h'⟩ | ⟨_, h'⟩ := execAt_cases hb i s
  · exact .inl (Host.Outcome.next.inj (h.symm.trans h'))
  · exact .inr (Host.Outcome.next.inj (h.symm.trans h'))

section SessionInvariant

variable {s : State}

/-- A refresh sets `CS_LAST_P`, so it needs the card to be present; both its callers have one. -/
theorem sessionFragment_sessionInv (r : Option CardRecord) (now : Time) (hinv : s.SessionInv) :
    (sessionFragment r now s).SessionInv := by
  obtain ⟨_, h⟩ | ⟨rec, _, _, h⟩ | ⟨rec, _, _, hpresent, _, h⟩ | ⟨rec, _, hvalid, _, h⟩ :=
    sessionFragment_cases r now s <;> rw [h]
  · exact hinv
  · exact hinv
  · exact ⟨hpresent.symm, hinv.2⟩
  · exact ⟨rfl, fun _ => hvalid⟩

theorem State.SessionInv.clearSession (s : State) : s.clearSession.SessionInv := ⟨rfl, nofun⟩

theorem heartbeat_sessionInv (hb now : Time) (hinv : s.SessionInv) : (heartbeat hb now s).SessionInv := by
  obtain ⟨_, h⟩ | ⟨_, h⟩ := heartbeat_cases hb now s <;> rw [h]
  · exact State.SessionInv.clearSession _
  · exact hinv

theorem execNext_sessionInv (i : Instr) (hinv : s.SessionInv) : (execNext i s).SessionInv := by
  obtain h | ⟨_, _, _, h⟩ | ⟨_, _, h⟩ | ⟨_, _, _, h⟩ | ⟨_, _, h⟩ | ⟨_, _, h⟩ | ⟨_, _, h⟩ := execNext_cases i s <;>
    rw [h]
  · exact hinv
  · simpa [State.SessionInv] using hinv
  · exact hinv
  · exact State.SessionInv.clearSession _
  · exact State.SessionInv.clearSession _
  · exact hinv
  · exact sessionFragment_sessionInv _ _ hinv

theorem execAt_sessionInv {hb : Time} {i : Instr} {t : State} (hinv : s.SessionInv) (h : execAt hb i s = .next t) :
    t.SessionInv := by
  obtain rfl | rfl := eq_of_execAt h
  · exact heartbeat_sessionInv hb _ hinv
  · exact execNext_sessionInv i hinv

theorem stepAt_sessionInv {hb : Time} {t : State} (hinv : s.SessionInv) (h : stepAt hb s = .next t) :
    t.SessionInv := by
  obtain ⟨u, _, hu, rfl⟩ | ⟨_, hhost⟩ := stepAt_cases h
  · have hkept : u.SessionInv := execAt_sessionInv hinv hu
    exact hkept
  · obtain ⟨q, rfl⟩ | ⟨q, w, now, rfl⟩ | ⟨_, q, _, rfl, _⟩ := hostStep_cases hb s t hhost
    · exact hinv
    · exact hinv
    · exact ⟨rfl, nofun⟩

end SessionInvariant

/-- Settles O44: the block reset clears both present bits, and every step keeps the invariant. -/
theorem sessionInvKeptByEveryStep : Obligations.SessionInvKeptByEveryStep := by
  unfold Obligations.SessionInvKeptByEveryStep
  exact ⟨fun _ => ⟨rfl, nofun⟩, fun _ _ hinv h => stepAt_sessionInv hinv h⟩

end Sys2Proof.Machine
end

section
/-! PROOFS. O49: each operation of the block stands for the source's, so every command does. -/

namespace Sys2Proof.Machine

section SourceCorrespondence

variable {s : State} {m : SourceState}

/-! ## The buffer -/

/-- The bounded buffer is empty exactly when the source's is. -/
theorem State.BufferOf.eq_nil_iff {buffer : List Nibble} (h : s.BufferOf buffer) : buffer = [] ↔ s.faCnt = 0 := by
  obtain ⟨hlive, hlong⟩ := h
  have hcnt : s.faCnt = 0 ↔ s.faCnt.val = 0 := Fin.ext_iff
  by_cases hle : s.faCnt.val ≤ 12
  · rw [hlive hle, ← List.length_eq_zero_iff, hcnt]
    simp
  · have hbound := hlong (by omega)
    rw [← List.length_eq_zero_iff, hcnt]; omega

/-- What a flush hands on decodes as the source's whole buffer does (42_decoder.md R131). -/
theorem State.BufferOf.decode_fragment {buffer : List Nibble} (h : s.BufferOf buffer) :
    decodeFragment s.fragment = decodeNibbles buffer := by
  obtain ⟨hlive, hlong⟩ := h
  by_cases hle : s.faCnt.val ≤ 12
  · rw [State.fragment_of_le s hle, hlive hle]; rfl
  · have hbound := hlong (by omega)
    rw [decodeNibbles_of_length_ne buffer (by omega)]
    exact State.decode_fragment_of_ne s (fun h12 => hle (by rw [h12]; decide))

theorem State.BufferOf.appendNibble (n : Nibble) {buffer : List Nibble} (h : s.BufferOf buffer) :
    (s.appendNibble n).BufferOf (buffer ++ [n]) := by
  obtain ⟨hlive, hlong⟩ := h
  obtain hroom | hfull := Nat.lt_or_ge s.faCnt.val 12
  · have hfrag := State.fragment_appendNibble n s hroom
    have hcnt := State.appendNibble_faCnt n s
    rw [State.fragment_of_le _ (by omega), ← hlive (by omega)] at hfrag
    exact ⟨fun _ => (Fragment.exact.inj hfrag).symm, fun h13 => by omega⟩
  · have hcnt := State.appendNibble_faCnt n s
    refine ⟨fun hle => by omega, fun _ => ?_⟩
    have hlen : 12 ≤ buffer.length := by
      obtain h12 | h13 : s.faCnt.val = 12 ∨ s.faCnt.val = 13 := by omega
      · simp [hlive h12.le, h12]
      · exact (hlong h13).le
    simpa using Nat.lt_succ_of_le hlen

/-! ## The named operations -/

theorem State.StandsFor.emit (e : Event) (h : s.StandsFor m) :
    (s.emit e).StandsFor { m with out := m.out ++ [e] } := by
  obtain ⟨hbuf, hcard, hlast, hout⟩ := h
  exact ⟨hbuf, hcard, hlast, congrArg (· ++ [e]) hout⟩

theorem State.StandsFor.clearFragment (h : s.StandsFor m) : s.clearFragment.StandsFor { m with buffer := [] } := by
  obtain ⟨_, hcard, hlast, hout⟩ := h
  exact ⟨⟨fun _ => rfl, nofun⟩, hcard, hlast, hout⟩

theorem State.StandsFor.appendNibble (n : Nibble) (h : s.StandsFor m) :
    (s.appendNibble n).StandsFor { m with buffer := m.buffer ++ [n] } := by
  obtain ⟨hbuf, hcard, hlast, hout⟩ := h
  exact ⟨hbuf.appendNibble n, by simpa using hcard, by simpa using hlast, by simpa using hout⟩

theorem State.StandsFor.refresh (now : Time) (h : s.StandsFor m) :
    (s.refresh now).StandsFor { m with lastValidReadAt := some now } := by
  obtain ⟨hbuf, hcard, _, hout⟩ := h
  exact ⟨hbuf, hcard, rfl, hout⟩

theorem State.StandsFor.setCard (rec : CardRecord) (h : s.StandsFor m) :
    (s.setCard rec).StandsFor { m with currentCard := some rec } := by
  obtain ⟨hbuf, _, hlast, hout⟩ := h
  exact ⟨hbuf, rfl, hlast, hout⟩

theorem State.StandsFor.clearSession (h : s.StandsFor m) :
    s.clearSession.StandsFor { m with currentCard := none, lastValidReadAt := none } := by
  obtain ⟨hbuf, _, _, hout⟩ := h
  exact ⟨hbuf, rfl, rfl, hout⟩

/-! ## The session -/

/-- The source's card is this record exactly where the block's present card is. -/
theorem State.StandsFor.currentCard_eq_some_iff (h : s.StandsFor m) (rec : CardRecord) :
    m.currentCard = some rec ↔ s.csCardP = true ∧ s.csCard = rec := by
  obtain ⟨_, hcard, _, _⟩ := h
  rw [hcard]; cases s.csCardP <;> simp

theorem State.StandsFor.sessionFragment (r : Option CardRecord) (now : Time) (h : s.StandsFor m) :
    (sessionFragment r now s).StandsFor (m.onFragment r now) := by
  obtain ⟨rfl, hs⟩ | ⟨rec, rfl, hinvalid, hs⟩ | ⟨rec, rfl, hvalid, hpresent, hsame, hs⟩ |
    ⟨rec, rfl, hvalid, hother, hs⟩ := sessionFragment_cases r now s <;> rw [hs]
  · exact h
  · simpa [SourceState.onFragment, hinvalid] using h.emit (.invalid rec)
  · have hcard := (h.currentCard_eq_some_iff rec).mpr ⟨hpresent, hsame⟩
    simpa [SourceState.onFragment, hvalid, hcard] using h.refresh now
  · have hcard : m.currentCard ≠ some rec := fun hc =>
      have ⟨hpresent, hsame⟩ := (h.currentCard_eq_some_iff rec).mp hc
      hother hpresent hsame
    simpa [SourceState.onFragment, hvalid, hcard] using ((h.refresh now).setCard rec).emit (.inserted rec)

theorem SourceState.marker_of_nil (now : Time) (h : m.buffer = []) : m.marker now = m := by
  unfold SourceState.marker; rw [h]

theorem SourceState.marker_of_ne_nil (now : Time) (h : m.buffer ≠ []) :
    m.marker now = { m with buffer := [] }.onFragment (decodeNibbles m.buffer) now := by
  unfold SourceState.marker
  split
  · contradiction
  · next hbuf => rw [hbuf]

theorem State.StandsFor.flush (now : Time) (h : s.StandsFor m) : (flush now s).StandsFor (m.marker now) := by
  have ⟨hbuf, _⟩ := h
  obtain ⟨hempty, hs⟩ | ⟨hfilled, hs⟩ := flush_cases now s <;> rw [hs]
  · rwa [SourceState.marker_of_nil now (hbuf.eq_nil_iff.mpr hempty)]
  · rw [SourceState.marker_of_ne_nil now (hfilled ∘ hbuf.eq_nil_iff.mp), hbuf.decode_fragment]
    exact h.clearFragment.sessionFragment _ now

/-- With no last read the source's TICK does nothing. -/
theorem SourceState.onTick_of_none (hb now : Time) (h : m.lastValidReadAt = none) : m.onTick hb now = m := by
  unfold SourceState.onTick; rw [h]

/-- With a last read and a card the source's TICK removes the card after the interval. -/
theorem SourceState.onTick_of_some {t0 : Time} {rec : CardRecord} (hb now : Time) (hlast : m.lastValidReadAt = some t0)
    (hcard : m.currentCard = some rec) :
    m.onTick hb now = if 0 < hb ∧ hb < satSub now t0 then
      { m with currentCard := none, lastValidReadAt := none, out := m.out ++ [.removed rec] } else m := by
  unfold SourceState.onTick; rw [hlast, hcard]

/-- The session invariant is what makes the source's test of two options the block's test of one present bit
(10_state.md R39). -/
theorem State.StandsFor.heartbeat (hb now : Time) (hinv : s.SessionInv) (h : s.StandsFor m) :
    (heartbeat hb now s).StandsFor (m.onTick hb now) := by
  have ⟨_, hcard, hlast, _⟩ := h
  obtain ⟨hbits, _⟩ := hinv
  unfold Machine.heartbeat State.lapsed
  cases hpresent : s.csLastP with
  | false =>
    rw [SourceState.onTick_of_none hb now (by simpa [hpresent] using hlast)]
    exact h
  | true =>
    rw [SourceState.onTick_of_some hb now (by simpa [hpresent] using hlast) (by simpa [← hbits, hpresent] using hcard)]
    by_cases hlapsed : 0 < hb ∧ hb < satSub now s.csLastT
    · simpa [hlapsed] using (h.emit (.removed s.csCard)).clearSession
    · simpa [hlapsed] using h

/-! ## Every command -/

theorem State.StandsFor.execAt (hb : Time) (i : Instr) (hinv : s.SessionInv) (h : s.StandsFor m) :
    ∃ t, execAt hb i s = .next t ∧ t.StandsFor (m.operation hb s.cmdNow i) := by
  have hbegin : s.beginCommand.StandsFor m := h
  cases i with
  | feedStart => exact ⟨_, rfl, hbegin.flush s.cmdNow⟩
  | feedEnd => exact ⟨_, rfl, hbegin.flush s.cmdNow⟩
  | feedHex n c => exact ⟨_, rfl, hbegin.appendNibble n⟩
  | feedGarbage b => exact ⟨_, rfl, hbegin.clearFragment.emit (.garbage b)⟩
  | tick ignored => exact ⟨_, rfl, hbegin.heartbeat hb s.cmdNow hinv⟩
  | sessionReset ignored => exact ⟨_, rfl, hbegin.clearSession⟩
  | reserved ignored => exact ⟨_, rfl, hbegin⟩

end SourceCorrespondence

/-- Settles O49: every command at every interval, the interface's open one among them. -/
theorem blockRefinesSource : Obligations.BlockRefinesSource := by
  unfold Obligations.BlockRefinesSource
  intro i s m hinv h
  exact ⟨execAt_config i s ▸ h.execAt Config.hbInterval i hinv, fun hb => h.execAt hb i hinv⟩

end Sys2Proof.Machine
end

section
/-! PROOFS. O7 and O8: the bits of a record and the wires of the event port. -/

namespace Sys2Proof.Machine

/-- Which field each bit of a record's 49 belongs to (10_state.md R36). -/
theorem CardRecord.getLsbD_bits (r : CardRecord) (k : Nat) :
    r.bits.getLsbD k =
      if k = 0 then r.isValid else if k < 9 then r.checksum.getLsbD (k - 1)
      else if k < 41 then r.value.getLsbD (k - 9) else r.type.getLsbD (k - 41) := by
  unfold CardRecord.bits
  grind [BitVec.getLsbD_ofBool]

theorem CardRecord.type_of_bits (r : CardRecord) : r.bits.extractLsb' 41 8 = r.type := by
  ext k hk
  have hfield : ¬ 41 + k < 9 := by omega
  simp [CardRecord.getLsbD_bits, hfield, hk]

theorem CardRecord.value_of_bits (r : CardRecord) : r.bits.extractLsb' 9 32 = r.value := by
  ext k hk
  have hfield : 9 + k < 41 := by omega
  simp [CardRecord.getLsbD_bits, hfield, hk]

theorem CardRecord.checksum_of_bits (r : CardRecord) : r.bits.extractLsb' 1 8 = r.checksum := by
  ext k hk
  have hfield : 1 + k < 9 := by omega
  simp [CardRecord.getLsbD_bits, hfield, hk]

theorem CardRecord.isValid_of_bits (r : CardRecord) : r.bits.getLsbD 0 = r.isValid := r.getLsbD_bits 0

theorem recordOfBits_bits (r : CardRecord) : recordOfBits r.bits = r := by
  unfold recordOfBits
  rw [r.type_of_bits, r.value_of_bits, r.checksum_of_bits, r.isValid_of_bits]

/-- Settles O7: reading the fields back inverts the layout, so equal bits are equal records. -/
theorem recordLayout : Obligations.RecordLayout := by
  unfold Obligations.RecordLayout
  intro r q
  have hinj : Function.Injective CardRecord.bits := Function.LeftInverse.injective recordOfBits_bits
  exact ⟨r.type_of_bits, r.value_of_bits, r.checksum_of_bits, r.isValid_of_bits, recordOfBits_bits r, hinj.eq_iff⟩

theorem Event.kind_lt_five (e : Event) : e.kind < 0b101 := by
  cases e <;> simp [Event.kind]

theorem State.eventPort_kind_lt_five (s : State) : s.eventPort.kind < 0b101 := by
  unfold State.eventPort
  split
  · decide
  · exact Event.kind_lt_five _

/-- Settles O8: the wires of each kind by definition, and no event has a kind of 101 or above. -/
theorem eventPortEncoding : Obligations.EventPortEncoding := by
  unfold Obligations.EventPortEncoding
  exact fun s r b => ⟨rfl, rfl, rfl, rfl, rfl, s.eventPort_kind_lt_five⟩

end Sys2Proof.Machine
end

section
/-! PROOFS. What a command emits, whom it leaves alone and who owns which register: O12, O13 and O24. -/

namespace Sys2Proof.Machine

/-! ## The event of a command -/

/-- `t` follows `s` with at most one event, at the history's end and on the port (10_state.md R40, R41). -/
abbrev State.EmitsAtMostOne (s t : State) : Prop :=
  (t.ev = s.ev ∧ t.evPort = none) ∨ ∃ e, t.ev = s.ev ++ [e] ∧ t.evPort = some e

section CommandEvent

variable {s : State}

theorem sessionFragment_emitsAtMostOne (r : Option CardRecord) (now : Time) (hport : s.evPort = none) :
    s.EmitsAtMostOne (sessionFragment r now s) := by
  obtain ⟨_, h⟩ | ⟨_, _, _, h⟩ | ⟨_, _, _, _, _, h⟩ | ⟨_, _, _, _, h⟩ := sessionFragment_cases r now s <;> rw [h]
  · exact .inl ⟨rfl, hport⟩
  · exact .inr ⟨_, rfl, rfl⟩
  · exact .inl ⟨rfl, hport⟩
  · exact .inr ⟨_, rfl, rfl⟩

theorem heartbeat_emitsAtMostOne (hb now : Time) (hport : s.evPort = none) :
    s.EmitsAtMostOne (heartbeat hb now s) := by
  obtain ⟨_, h⟩ | ⟨_, h⟩ := heartbeat_cases hb now s <;> rw [h]
  · exact .inr ⟨_, rfl, rfl⟩
  · exact .inl ⟨rfl, hport⟩

theorem execNext_emitsAtMostOne (i : Instr) (s : State) : s.EmitsAtMostOne (execNext i s) := by
  obtain h | ⟨_, _, _, h⟩ | ⟨_, _, h⟩ | ⟨_, _, _, h⟩ | ⟨_, _, h⟩ | ⟨_, _, h⟩ | ⟨_, _, h⟩ := execNext_cases i s <;>
    rw [h]
  · exact .inl ⟨rfl, rfl⟩
  · exact .inl ⟨by simp, by simp⟩
  · exact .inr ⟨_, rfl, rfl⟩
  · exact .inr ⟨_, rfl, rfl⟩
  · exact .inl ⟨rfl, rfl⟩
  · exact .inl ⟨rfl, rfl⟩
  · exact sessionFragment_emitsAtMostOne (s := s.beginCommand.clearFragment) _ _ rfl

theorem execAt_emitsAtMostOne {hb : Time} {i : Instr} {t : State} (h : execAt hb i s = .next t) :
    s.EmitsAtMostOne t := by
  obtain rfl | rfl := eq_of_execAt h
  · exact heartbeat_emitsAtMostOne (s := s.beginCommand) hb _ rfl
  · exact execNext_emitsAtMostOne i s

end CommandEvent

/-- Settles O12: at every interval, so at the open one. -/
theorem atMostOneEventPerCommand : Obligations.AtMostOneEventPerCommand := by
  unfold Obligations.AtMostOneEventPerCommand
  intro i s t h
  exact execAt_emitsAtMostOne ((execAt_config i s).trans h)

/-! ## The command port and the host -/

/-- `t` has the command port and the host of `s` (10_state.md R44, R48). -/
abbrev State.SameHost (s t : State) : Prop :=
  t.cmdValid = s.cmdValid ∧ t.cmdWord = s.cmdWord ∧ t.cmdNow = s.cmdNow ∧ t.seq = s.seq

theorem sessionFragment_sameHost (r : Option CardRecord) (now : Time) (s : State) :
    s.SameHost (sessionFragment r now s) := by
  obtain ⟨_, h⟩ | ⟨_, _, _, h⟩ | ⟨_, _, _, _, _, h⟩ | ⟨_, _, _, _, h⟩ := sessionFragment_cases r now s <;>
    simp [h, State.SameHost]

theorem heartbeat_sameHost (hb now : Time) (s : State) : s.SameHost (heartbeat hb now s) := by
  obtain ⟨_, h⟩ | ⟨_, h⟩ := heartbeat_cases hb now s <;> simp [h, State.SameHost]

theorem execNext_sameHost (i : Instr) (s : State) : s.SameHost (execNext i s) := by
  obtain h | ⟨_, _, _, h⟩ | ⟨_, _, h⟩ | ⟨_, _, _, h⟩ | ⟨_, _, h⟩ | ⟨_, _, h⟩ | ⟨_, _, h⟩ := execNext_cases i s
  case inr.inr.inr.inr.inr.inr =>
    rw [h]; exact sessionFragment_sameHost _ _ s.beginCommand.clearFragment
  all_goals simp [h, State.SameHost]

theorem execAt_sameHost {hb : Time} {i : Instr} {s t : State} (h : execAt hb i s = .next t) : s.SameHost t := by
  obtain rfl | rfl := eq_of_execAt h
  · exact heartbeat_sameHost hb _ s.beginCommand
  · exact execNext_sameHost i s

/-! ## Where the parameter matters -/

/-- A request that is no construction does not read the parameter. -/
theorem hostCall_congr (hb hb' : Time) (s : State) (h : ∀ v rest, s.seq.calls ≠ .construct v :: rest) :
    hostCall hb s = hostCall hb' s := by
  unfold hostCall
  cases hcalls : s.seq.calls with
  | nil => rfl
  | cons call rest =>
    cases call with
    | construct v => exact absurd hcalls (h v rest)
    | command | openTransport | closeTransport | blockReset | runEvents | readOne | requestStop => rfl

/-- The one host action that reads the parameter is the idle host's construction. -/
theorem hostStep_congr (hb hb' : Time) (s : State)
    (h : s.seq.loc ≠ .idle ∨ ∀ v rest, s.seq.calls ≠ .construct v :: rest) : hostStep hb s = hostStep hb' s := by
  unfold hostStep
  cases hloc : s.seq.loc with
  | idle => exact hostCall_congr hb hb' s (h.resolve_left (absurd hloc))
  | deadline | top | poll | tick | hook | acts => rfl

theorem stepAt_congr (hb hb' : Time) (s : State) (htick : s.cmdValid = true → (decode s.cmdWord).opcode ≠ .tick)
    (hconstruct : s.cmdValid = true ∨ s.seq.loc ≠ .idle ∨ ∀ v rest, s.seq.calls ≠ .construct v :: rest) :
    stepAt hb s = stepAt hb' s := by
  cases hvalid : s.cmdValid with
  | true =>
    unfold stepAt
    rw [if_pos hvalid, if_pos hvalid, execAt_of_ne_tick hb _ s (htick hvalid), execAt_of_ne_tick hb' _ s (htick hvalid)]
  | false =>
    rw [stepAt_of_not_valid hb s hvalid, stepAt_of_not_valid hb' s hvalid]
    exact hostStep_congr hb hb' s (hconstruct.resolve_left (by simp [hvalid]))

/-- The request the idle host takes next is what its step carries out. -/
theorem stepAt_of_idle (hb : Time) {s : State} (hvalid : s.cmdValid = false) (hidle : s.seq.loc = .idle) :
    stepAt hb s = hostCall hb s := by
  rw [stepAt_of_not_valid hb s hvalid]; unfold hostStep; rw [hidle]

/-- A construction goes on only where it samples the run's own interval (70_reset_and_hazards.md R231, R238). -/
theorem State.construct_next {hb presented : Time} {s t : State} (h : s.construct hb presented = .next t) :
    presented = hb ∧ s.seq.transport = .available ∧ t = s.blockReset := by
  unfold State.construct at h
  split at h
  · next havailable =>
    split at h
    · next hsame => exact ⟨hsame, havailable, (Host.Outcome.next.inj h).symm⟩
    · cases h
  · cases h
  · cases h

theorem stepAt_construct_next {hb presented : Time} {rest : List HostCall} {s t : State} (hvalid : s.cmdValid = false)
    (hidle : s.seq.loc = .idle) (hcalls : s.seq.calls = .construct presented :: rest) (h : stepAt hb s = .next t) :
    presented = hb := by
  rw [stepAt_of_idle hb hvalid hidle] at h
  unfold hostCall at h
  rw [hcalls] at h
  obtain ⟨hsame, _⟩ := State.construct_next h
  exact hsame

/-- Settles O13: the frame of a command, and the two places that read the parameter. -/
theorem commandsLeaveHostAndConfigAlone : Obligations.CommandsLeaveHostAndConfigAlone := by
  unfold Obligations.CommandsLeaveHostAndConfigAlone
  refine ⟨fun _ _ _ _ h => execAt_sameHost h, fun i s => (execAt_config i s).symm, fun _ => rfl,
    fun hb hb' i s hi => ?_, stepAt_congr, fun p s t h => ?_⟩
  · rw [execAt_of_ne_tick hb i s hi, execAt_of_ne_tick hb' i s hi]
  · obtain ⟨hstep, _⟩ := (stepWith_next_iff p s t).mp h
    exact ⟨hstep, fun _ _ hvalid hidle hcalls => stepAt_construct_next hvalid hidle hcalls hstep⟩

/-! ## The owners of the registers -/

theorem heartbeat_fragment (hb now : Time) (s : State) :
    (heartbeat hb now s).faBuf = s.faBuf ∧ (heartbeat hb now s).faCnt = s.faCnt := by
  obtain ⟨_, h⟩ | ⟨_, h⟩ := heartbeat_cases hb now s <;> simp [h]

/-- The heartbeat emits REMOVED or nothing (43_session.md R160). -/
theorem heartbeat_evPort (hb now : Time) (s : State) :
    (heartbeat hb now s).evPort = some (.removed s.csCard) ∨ (heartbeat hb now s).evPort = s.evPort := by
  obtain ⟨_, h⟩ | ⟨_, h⟩ := heartbeat_cases hb now s <;> simp [h]

/-- FEED_HEX, FEED_GARBAGE and RESERVED leave the session registers alone (10_state.md R31, 41_framer.md R107). -/
theorem execNext_session (i : Instr) (s : State)
    (h : i.opcode = .feedHex ∨ i.opcode = .feedGarbage ∨ i.opcode = .reserved) :
    (execNext i s).csCardP = s.csCardP ∧ (execNext i s).csCard = s.csCard ∧
      (execNext i s).csLastP = s.csLastP ∧ (execNext i s).csLastT = s.csLastT := by
  cases i with
  | feedHex n c => simp [execNext_feedHex]
  | feedGarbage b => simp [execNext_feedGarbage]
  | reserved ignored => simp [execNext_reserved]
  | feedStart | feedEnd | tick | sessionReset => simp [Instr.opcode] at h

/-- TICK, SESSION_RESET and RESERVED leave the fragment buffer alone (43_session.md R160, R171). -/
theorem execNext_fragment (i : Instr) (s : State)
    (h : i.opcode = .tick ∨ i.opcode = .sessionReset ∨ i.opcode = .reserved) :
    (execNext i s).faBuf = s.faBuf ∧ (execNext i s).faCnt = s.faCnt := by
  cases i with
  | tick ignored => exact heartbeat_fragment _ _ s.beginCommand
  | sessionReset ignored => simp [execNext_sessionReset]
  | reserved ignored => simp [execNext_reserved]
  | feedStart | feedEnd | feedHex | feedGarbage => simp [Instr.opcode] at h

/-- No command but a marker reads a card. -/
theorem execNext_evPort_of_not_marker (i : Instr) (s : State) (hstart : i.opcode ≠ .feedStart)
    (hend : i.opcode ≠ .feedEnd) (r : CardRecord) :
    (execNext i s).evPort ≠ some (.inserted r) ∧ (execNext i s).evPort ≠ some (.invalid r) := by
  obtain h | ⟨_, _, _, h⟩ | ⟨_, _, h⟩ | ⟨_, _, _, h⟩ | ⟨_, _, h⟩ | ⟨_, _, h⟩ | ⟨rfl | rfl, _⟩ := execNext_cases i s
  case inr.inr.inr.inr.inr.inr.inl => exact absurd rfl hstart
  case inr.inr.inr.inr.inr.inr.inr => exact absurd rfl hend
  all_goals simp [h]

/-- Settles O24: the three owners' rules, for the state a command leads to. -/
theorem registersHaveOneOwner : Obligations.RegistersHaveOneOwner := by
  unfold Obligations.RegistersHaveOneOwner
  intro i s t h
  obtain rfl : execNext i s = t := Host.Outcome.next.inj ((exec_eq_execNext i s).symm.trans h)
  exact ⟨execNext_session i s, execNext_fragment i s,
    fun r hstart hend => execNext_evPort_of_not_marker i s hstart hend r⟩

end Sys2Proof.Machine
end

section
/-! PROOFS. What a step leaves of the block and its history, and what a block reset and a status read do: O47, O50,
O42, O45 and O60. -/

namespace Sys2Proof.Machine

/-! ## Host actions and the history -/

/-- The two requests that restart the block are what `State.restartsBlock` tests. -/
theorem State.restartsBlock_of_idle {s : State} {hb : Time} {rest : List HostCall} (hvalid : s.cmdValid = false)
    (hidle : s.seq.loc = .idle) (hcalls : s.seq.calls = .blockReset :: rest ∨ s.seq.calls = .construct hb :: rest) :
    s.restartsBlock = true := by
  obtain hcalls | hcalls := hcalls <;> simp [State.restartsBlock, hvalid, hidle, hcalls]

/-- A host action that does not restart the block changes no block element (10_state.md R30, R48). -/
theorem hostStep_sameBlock {hb : Time} {s t : State} (hvalid : s.cmdValid = false) (hgoes : s.restartsBlock = false)
    (h : hostStep hb s = .next t) : s.SameBlock t := by
  obtain ⟨q, rfl⟩ | ⟨q, w, now, rfl⟩ | ⟨hidle, _, _, _, hcalls⟩ := hostStep_cases hb s t h
  · simp [State.SameBlock]
  · simp [State.SameBlock]
  · have hrestarts := State.restartsBlock_of_idle hvalid hidle (hcalls.imp_right And.left)
    rw [hgoes] at hrestarts; cases hrestarts

/-- Settles O50: a step with no command presented is a host action. -/
theorem hostActionsLeaveBlockAlone : Obligations.HostActionsLeaveBlockAlone := by
  unfold Obligations.HostActionsLeaveBlockAlone
  intro s t hvalid hgoes h
  exact hostStep_sameBlock hvalid hgoes ((step_of_not_valid s hvalid).symm.trans h)

/-- Settles O47: a command appends at most one event, and a host action none. -/
theorem historyOnlyGrows : Obligations.HistoryOnlyGrows := by
  unfold Obligations.HistoryOnlyGrows
  intro s t h hgoes
  obtain ⟨u, hvalid, hu, rfl⟩ | ⟨hvalid, hhost⟩ := stepAt_cases h
  · obtain ⟨hev, _⟩ | ⟨e, hev, _⟩ := execAt_emitsAtMostOne hu
    · exact .inl hev
    · exact .inr ⟨e, hev, hvalid⟩
  · obtain ⟨_, _, _, _, _, _, _, hev, _⟩ := hostStep_sameBlock hvalid hgoes hhost
    exact .inl hev.symm

/-! ## Reset -/

theorem step_of_blockReset {s : State} {rest : List HostCall} (hvalid : s.cmdValid = false)
    (hidle : s.seq.loc = .idle) (hcalls : s.seq.calls = .blockReset :: rest) :
    step s = .next { s with seq := { s.seq with calls := rest } }.blockReset := by
  refine (stepAt_of_idle Config.hbInterval hvalid hidle).trans ?_
  unfold hostCall; rw [hcalls]

/-- Settles O42: at reset and in the operation by definition, and in the step of the idle host by its next request. -/
theorem blockResetValues : Obligations.BlockResetValues := by
  unfold Obligations.BlockResetValues
  refine ⟨⟨rfl, rfl, rfl, rfl, rfl, rfl, rfl⟩, fun s => ⟨rfl, rfl, rfl, rfl, rfl, rfl, rfl, rfl, rfl, rfl⟩, ?_⟩
  intro s rest hvalid hidle hcalls
  exact ⟨_, step_of_blockReset hvalid hidle hcalls, rfl, rfl, rfl, rfl, rfl, rfl, hvalid, rfl, rfl, rfl⟩

/-- Settles O45: at reset no card is present, the history is empty and no READ_ONE runs. -/
theorem resetMeetsInvariants : Obligations.ResetMeetsInvariants := by
  unfold Obligations.ResetMeetsInvariants
  exact ⟨⟨rfl, nofun⟩, nofun, nofun, fun _ _ => rfl, nofun⟩

/-! ## The status ports -/

/-- A hook's status read records what the ports show and goes on (44_poll_loop.md R183). -/
theorem step_of_readStatus {s : State} {m : HostMode} {rest : List HookAction} (hvalid : s.cmdValid = false)
    (hloc : s.seq.loc = .acts m (.readStatus :: rest)) :
    step s = .next { s with seq := { s.seq with seen := some s.status, loc := .acts m rest } } := by
  rw [step_of_not_valid s hvalid]; unfold hostStep; rw [hloc]; rfl

/-- Settles O60: the ports are the registers by definition, and a hook's read changes no register. -/
theorem statusPortsMirrorRegisters : Obligations.StatusPortsMirrorRegisters := by
  unfold Obligations.StatusPortsMirrorRegisters
  refine ⟨fun _ => ⟨rfl, rfl, rfl, rfl, rfl⟩, fun s m rest hvalid hloc => ?_⟩
  exact ⟨_, step_of_readStatus hvalid hloc, rfl, rfl⟩

end Sys2Proof.Machine
end

section
/-! PROOFS. The two fields of a command word, the byte classes, and decoding against encoding: O3, O4, O1, O5 and O6. -/

namespace Sys2Proof.Machine

/-! ## The fields of a command word -/

@[simp] theorem kindField_commandWord (k : BitVec 2) (b : Byte) : kindField (commandWord k b) = k :=
  BitVec.extractLsb'_append_eq_left

@[simp] theorem byteField_commandWord (k : BitVec 2) (b : Byte) : byteField (commandWord k b) = b :=
  BitVec.extractLsb'_append_eq_right

@[simp] theorem commandWord_kindField_byteField (w : CmdWord) : commandWord (kindField w) (byteField w) = w :=
  (BitVec.extractLsb'_append_extractLsb'_eq_extractLsb' rfl).trans BitVec.extractLsb'_eq_self

theorem eq_iff_kindField_byteField (v w : CmdWord) : v = w ↔ kindField v = kindField w ∧ byteField v = byteField w := by
  refine ⟨fun h => h ▸ ⟨rfl, rfl⟩, fun ⟨hkind, hbyte⟩ => ?_⟩
  rw [← commandWord_kindField_byteField v, hkind, hbyte, commandWord_kindField_byteField]

theorem decode_commandWord_zero (b : Byte) : decode (commandWord 0 b) = decodeByte b := by simp [decode]

theorem decode_commandWord_one (b : Byte) : decode (commandWord 1 b) = .tick b := by simp [decode]

theorem decode_commandWord_two (b : Byte) : decode (commandWord 2 b) = .sessionReset b := by simp [decode]

theorem decode_commandWord_three (b : Byte) : decode (commandWord 3 b) = .reserved b := by simp [decode]

/-- The four kinds of words, each with what it decodes to (30_encoding.md R81). -/
theorem decode_cases (w : CmdWord) :
    ∃ b, (w = commandWord 0 b ∧ decode w = decodeByte b) ∨ (w = commandWord 1 b ∧ decode w = .tick b) ∨
      (w = commandWord 2 b ∧ decode w = .sessionReset b) ∨ (w = commandWord 3 b ∧ decode w = .reserved b) := by
  have hkinds : ∀ k : BitVec 2, k = 0 ∨ k = 1 ∨ k = 2 ∨ k = 3 := by decide
  refine ⟨byteField w, ?_⟩
  rw [← commandWord_kindField_byteField w, byteField_commandWord]
  obtain h | h | h | h := hkinds (kindField w) <;> rw [h]
  · exact .inl ⟨rfl, decode_commandWord_zero _⟩
  · exact .inr (.inl ⟨rfl, decode_commandWord_one _⟩)
  · exact .inr (.inr (.inl ⟨rfl, decode_commandWord_two _⟩))
  · exact .inr (.inr (.inr ⟨rfl, decode_commandWord_three _⟩))

/-! ## The byte classes and the digits -/

/-- `hex_value` is defined on the three HEX ranges (30_encoding.md R82, R86). -/
theorem hexValue_isSome_iff (b : Byte) :
    (hexValue b).isSome = true ↔ (0x30 ≤ b ∧ b ≤ 0x39) ∨ (0x41 ≤ b ∧ b ≤ 0x46) ∨ (0x61 ≤ b ∧ b ≤ 0x66) := by
  unfold hexValue
  split_ifs with hdigit hupper hlower
  · exact iff_of_true rfl (.inl hdigit)
  · exact iff_of_true rfl (.inr (.inl hupper))
  · exact iff_of_true rfl (.inr (.inr hlower))
  · exact iff_of_false nofun (not_or.mpr ⟨hdigit, not_or.mpr ⟨hupper, hlower⟩⟩)

theorem hexValue_startMarker : hexValue Config.startMarker = none := by decide

theorem hexValue_endMarker : hexValue Config.endMarker = none := by decide

/-- What a byte can be, said once: its class, its nibble and the operation it selects (41_framer.md R100). -/
theorem decodeByte_cases (b : Byte) :
    (classify b = .start ∧ b = Config.startMarker ∧ decodeByte b = .feedStart) ∨
    (classify b = .stop ∧ b = Config.endMarker ∧ decodeByte b = .feedEnd) ∨
    (∃ n, classify b = .hex ∧ hexValue b = some n ∧ decodeByte b = .feedHex n (hexCase b)) ∨
    (classify b = .garbage ∧ b ≠ Config.startMarker ∧ b ≠ Config.endMarker ∧ hexValue b = none ∧
      decodeByte b = .feedGarbage b) := by
  unfold classify decodeByte
  by_cases hstart : b = Config.startMarker
  · exact .inl ⟨if_pos hstart, hstart, if_pos hstart⟩
  by_cases hend : b = Config.endMarker
  · exact .inr (.inl (by simp [hend, Config.startMarker, Config.endMarker]))
  cases hhex : hexValue b with
  | some n => exact .inr (.inr (.inl ⟨n, by simp [hstart, hend]⟩))
  | none => exact .inr (.inr (.inr (by simp [hstart, hend])))

theorem classify_eq_start_iff (b : Byte) : classify b = .start ↔ b = Config.startMarker := by
  obtain ⟨hc, hb, _⟩ | ⟨hc, rfl, _⟩ | ⟨n, hc, hn, _⟩ | ⟨hc, hb, _⟩ := decodeByte_cases b
  · exact iff_of_true hc hb
  · decide
  · have hb : b ≠ Config.startMarker := by rintro rfl; cases hn
    simp [hc, hb]
  · simp [hc, hb]

theorem classify_eq_stop_iff (b : Byte) : classify b = .stop ↔ b = Config.endMarker := by
  obtain ⟨hc, rfl, _⟩ | ⟨hc, hb, _⟩ | ⟨n, hc, hn, _⟩ | ⟨hc, _, hb, _⟩ := decodeByte_cases b
  · decide
  · exact iff_of_true hc hb
  · have hb : b ≠ Config.endMarker := by rintro rfl; cases hn
    simp [hc, hb]
  · simp [hc, hb]

theorem classify_eq_hex_iff (b : Byte) : classify b = .hex ↔ (hexValue b).isSome = true := by
  obtain ⟨hc, rfl, _⟩ | ⟨hc, rfl, _⟩ | ⟨n, hc, hn, _⟩ | ⟨hc, _, _, hn, _⟩ := decodeByte_cases b
  · decide
  · decide
  · simp [hc, hn]
  · simp [hc, hn]

/-- The GARBAGE row of the class table is what the other three rows leave (30_encoding.md R82). -/
theorem isGarbageByte_iff (b : Byte) :
    isGarbageByte b = true ↔ b ≠ Config.startMarker ∧ b ≠ Config.endMarker ∧ ¬ (hexValue b).isSome = true := by
  rw [hexValue_isSome_iff]
  simp only [isGarbageByte, Config.startMarker, Config.endMarker, Bool.or_eq_true, Bool.and_eq_true, decide_eq_true_eq]
  bv_omega

theorem classify_eq_garbage_iff (b : Byte) : classify b = .garbage ↔ isGarbageByte b = true := by
  rw [isGarbageByte_iff, ne_eq, ne_eq, ← classify_eq_start_iff, ← classify_eq_stop_iff, ← classify_eq_hex_iff]
  cases classify b <;> decide

theorem decodeByte_of_isGarbageByte {b : Byte} (h : isGarbageByte b = true) : decodeByte b = .feedGarbage b := by
  have hclass := (classify_eq_garbage_iff b).mpr h
  obtain ⟨hc, _⟩ | ⟨hc, _⟩ | ⟨_, hc, _⟩ | ⟨_, _, _, _, hdec⟩ := decodeByte_cases b
  · rw [hclass] at hc; cases hc
  · rw [hclass] at hc; cases hc
  · rw [hclass] at hc; cases hc
  · exact hdec

/-- `hex_value` inverts `hexdig` (30_encoding.md R93). -/
theorem hexValue_hexDigit (n : Nibble) (c : LetterCase) : hexValue (hexDigit n c) = some n := by
  cases c <;> revert n <;> decide

/-- A well-formed digit comes back with its case: only the letters have two (30_encoding.md R84). -/
theorem hexCase_hexDigit {n : Nibble} {c : LetterCase} (h : WellFormed (.feedHex n c)) :
    hexCase (hexDigit n c) = c := by
  cases c <;> revert n <;> decide

set_option maxRecDepth 10000 in
/-- `hexdig` in the byte's own case gives a HEX byte back (30_encoding.md R86, R93). -/
theorem hexDigit_of_hexValue {b : Byte} {n : Nibble} (h : hexValue b = some n) : hexDigit n (hexCase b) = b := by
  have hbytes : ∀ b : Byte, (hexValue b).all (fun n => hexDigit n (hexCase b) == b) = true := by decide
  simpa [h] using hbytes b

theorem decodeByte_hexDigit {n : Nibble} {c : LetterCase} (h : WellFormed (.feedHex n c)) :
    decodeByte (hexDigit n c) = .feedHex n c := by
  have hval := hexValue_hexDigit n c
  have hclass := (classify_eq_hex_iff (hexDigit n c)).mpr (by rw [hval]; rfl)
  obtain ⟨hc, _⟩ | ⟨hc, _⟩ | ⟨m, _, hm, hdec⟩ | ⟨hc, _⟩ := decodeByte_cases (hexDigit n c)
  · rw [hclass] at hc; cases hc
  · rw [hclass] at hc; cases hc
  · obtain rfl := Option.some.inj (hval.symm.trans hm)
    rw [hdec, hexCase_hexDigit h]
  · rw [hclass] at hc; cases hc

/-! ## Decoding and encoding -/

/-- Settles O3, by the instruction's constructor: its word's kind selects the arm, and a BYTE word's byte the rest. -/
theorem decodeOfEncode : Obligations.DecodeOfEncode := by
  unfold Obligations.DecodeOfEncode
  intro i hwf
  cases i with
  | feedStart => rfl
  | feedEnd => rfl
  | feedHex n c => exact (decode_commandWord_zero _).trans (decodeByte_hexDigit hwf)
  | feedGarbage b => exact (decode_commandWord_zero b).trans (decodeByte_of_isGarbageByte hwf)
  | tick ignored => exact decode_commandWord_one ignored
  | sessionReset ignored => exact decode_commandWord_two ignored
  | reserved ignored => exact decode_commandWord_three ignored

/-- The word of a BYTE command's operation is kind 00 with that byte (30_encoding.md R81, R87). -/
theorem encode_decodeByte (b : Byte) : encode (decodeByte b) = commandWord 0 b := by
  obtain ⟨_, rfl, hdec⟩ | ⟨_, rfl, hdec⟩ | ⟨n, _, hn, hdec⟩ | ⟨_, _, _, _, hdec⟩ := decodeByte_cases b
  · rw [hdec]; rfl
  · rw [hdec]; rfl
  · rw [hdec, encode, hexDigit_of_hexValue hn]
  · rw [hdec]; rfl

/-- Settles O4, by the word's kind. -/
theorem encodeOfDecode : Obligations.EncodeOfDecode := by
  unfold Obligations.EncodeOfDecode
  refine fun w => ⟨decode_wellFormed w, ?_⟩
  obtain ⟨b, ⟨hw, hdec⟩ | ⟨hw, hdec⟩ | ⟨hw, hdec⟩ | ⟨hw, hdec⟩⟩ := decode_cases w <;> rw [hdec, hw]
  · exact encode_decodeByte b
  · rfl
  · rfl
  · rfl

/-- Settles O1: the decoder runs on the ten words. -/
theorem sampleWordsDecode : Obligations.SampleWordsDecode := by
  unfold Obligations.SampleWordsDecode
  decide

/-- Settles O5: each class is its row of ranges, and the decoder follows the class. -/
theorem byteClassesPartition : Obligations.ByteClassesPartition := by
  unfold Obligations.ByteClassesPartition
  intro b
  have hhigh : 0x80 ≤ b → isGarbageByte b = true := fun h => by
    simp only [isGarbageByte, Bool.or_eq_true, decide_eq_true_eq]
    exact .inr (by bv_omega)
  refine ⟨classify_eq_start_iff b, classify_eq_stop_iff b, (classify_eq_hex_iff b).trans (hexValue_isSome_iff b),
    classify_eq_garbage_iff b, fun h => (classify_eq_garbage_iff b).mpr (hhigh h), ?_⟩
  rw [decode_commandWord_zero]
  obtain ⟨hc, rfl, hdec⟩ | ⟨hc, rfl, hdec⟩ | ⟨n, hc, hn, hdec⟩ | ⟨hc, _, _, hn, hdec⟩ := decodeByte_cases b
  · simp [hc, hdec, hexValue_startMarker, Instr.opcode]
  · simp [hc, hdec, hexValue_endMarker, Instr.opcode]
  · simp [hc, hdec, hn, Instr.opcode]
  · simp [hc, hdec, hn, Instr.opcode]

/-- Settles O6: both digits of a nibble have its value, and a byte with a value is of class HEX. -/
theorem hexValueInvertsHexDigit : Obligations.HexValueInvertsHexDigit := by
  unfold Obligations.HexValueInvertsHexDigit
  exact ⟨hexValue_hexDigit, fun b => (classify_eq_hex_iff b).symm⟩

end Sys2Proof.Machine
end

section
/-! PROOFS. O2: a word matches a row field by field, so the rows of each list that match a word are the rows of its kind
and, in kind 00, of its byte's class. -/

namespace Sys2Proof.Machine

/-! ## Matching by fields -/

theorem CommandRow.matches_commandWord (r : CommandRow) (k : BitVec 2) (b : Byte) :
    r.matches (commandWord k b) =
      (k &&& kindField r.mask == kindField r.pattern && (b &&& byteField r.mask == byteField r.pattern)) := by
  have hkind : kindField (commandWord k b &&& r.mask) = k &&& kindField r.mask :=
    BitVec.extractLsb'_and.trans (congrArg (· &&& _) (kindField_commandWord k b))
  have hbyte : byteField (commandWord k b &&& r.mask) = b &&& byteField r.mask :=
    BitVec.extractLsb'_and.trans (congrArg (· &&& _) (byteField_commandWord k b))
  rw [Bool.eq_iff_iff]
  simp [CommandRow.matches, eq_iff_kindField_byteField, hkind, hbyte]

/-- The operations of the rows that match a word, in the order of the rows. -/
def matchingOpcodes (rows : List CommandRow) (w : CmdWord) : List Opcode :=
  (rows.filter (fun r => r.matches w)).map CommandRow.opcode

theorem matchingOpcodes_append (rows rows' : List CommandRow) (w : CmdWord) :
    matchingOpcodes (rows ++ rows') w = matchingOpcodes rows w ++ matchingOpcodes rows' w := by
  simp [matchingOpcodes]

/-- The rows of the other kinds read the kind alone. -/
theorem matchingOpcodes_kindRows (k : BitVec 2) (b : Byte) :
    matchingOpcodes kindRows (commandWord k b) =
      if k = 1 then [.tick] else if k = 2 then [.sessionReset] else if k = 3 then [.reserved] else [] := by
  have hread : ∀ r ∈ kindRows, kindField r.mask = 3 ∧ byteField r.mask = 0 ∧ byteField r.pattern = 0 := by decide
  have hmatch : ∀ r ∈ kindRows, r.matches (commandWord k b) = (k &&& 3 == kindField r.pattern) := fun r hr => by
    obtain ⟨hmask, hbyte, hpattern⟩ := hread r hr
    simp [CommandRow.matches_commandWord, hmask, hbyte, hpattern]
  rw [matchingOpcodes, List.filter_congr hmatch]
  clear hmatch; revert k; decide

/-- The rows of kind 00 match no word of another kind. -/
theorem matchingOpcodes_byteRows_of_ne_zero {k : BitVec 2} (hk : k ≠ 0) (b : Byte) :
    matchingOpcodes (markerRows ++ hexRows ++ garbageRows) (commandWord k b) = [] := by
  have hread : ∀ r ∈ markerRows ++ hexRows ++ garbageRows, kindField r.mask = 3 ∧ kindField r.pattern = 0 := by decide
  have hall : k &&& 3 = k := BitVec.and_allOnes
  rw [matchingOpcodes, List.map_eq_nil_iff, List.filter_eq_nil_iff]
  intro r hr
  obtain ⟨hmask, hpattern⟩ := hread r hr
  rw [CommandRow.matches_commandWord, hmask, hpattern, hall, beq_false_of_ne hk]
  exact Bool.false_ne_true

/-! ## The rows of each byte class -/

set_option maxRecDepth 10000 in
theorem matchingOpcodes_markerRows (b : Byte) :
    matchingOpcodes markerRows (commandWord 0 b) =
      if classify b = .start then [.feedStart] else if classify b = .stop then [.feedEnd] else [] := by
  revert b; decide

set_option maxRecDepth 10000 in
/-- The 22 exact rows are the HEX class, each digit once (30_encoding.md R84). -/
theorem matchingOpcodes_hexRows (b : Byte) :
    matchingOpcodes hexRows (commandWord 0 b) = if classify b = .hex then [.feedHex] else [] := by
  revert b; decide

set_option maxRecDepth 10000 in
/-- The 16 aligned blocks are disjoint and cover the GARBAGE class (30_encoding.md R89). -/
theorem matchingOpcodes_garbageRows (b : Byte) :
    matchingOpcodes garbageRows (commandWord 0 b) = if classify b = .garbage then [.feedGarbage] else [] := by
  revert b; decide

theorem matchingOpcodes_byteRows (b : Byte) :
    matchingOpcodes (markerRows ++ hexRows ++ garbageRows) (commandWord 0 b) = [(decodeByte b).opcode] := by
  rw [matchingOpcodes_append, matchingOpcodes_append, matchingOpcodes_markerRows, matchingOpcodes_hexRows,
    matchingOpcodes_garbageRows]
  obtain ⟨hc, _, hdec⟩ | ⟨hc, _, hdec⟩ | ⟨n, hc, _, hdec⟩ | ⟨hc, _, _, _, hdec⟩ := decodeByte_cases b <;>
    simp [hc, hdec, Instr.opcode]

theorem matchingOpcodes_commandRows (w : CmdWord) : matchingOpcodes commandRows w = [(decode w).opcode] := by
  rw [commandRows, matchingOpcodes_append]
  obtain ⟨b, ⟨rfl, hdec⟩ | ⟨rfl, hdec⟩ | ⟨rfl, hdec⟩ | ⟨rfl, hdec⟩⟩ := decode_cases w <;>
    rw [hdec, matchingOpcodes_kindRows]
  · rw [matchingOpcodes_byteRows]; rfl
  · rw [matchingOpcodes_byteRows_of_ne_zero (by decide)]; rfl
  · rw [matchingOpcodes_byteRows_of_ne_zero (by decide)]; rfl
  · rw [matchingOpcodes_byteRows_of_ne_zero (by decide)]; rfl

/-- Settles O2: one matching operation in the whole map is one matching row. -/
theorem everyWordMatchesOneRow : Obligations.EveryWordMatchesOneRow := by
  unfold Obligations.EveryWordMatchesOneRow
  exact fun w => List.map_eq_singleton_iff.mp (matchingOpcodes_commandRows w)

end Sys2Proof.Machine
end

section
/-! PROOFS. Fetching a word and completing a command: O10 and O11. -/

namespace Sys2Proof.Machine

/-- What the table decoder reads is the decoding of the word that is presented (30_encoding.md R80). -/
theorem decode_of_decodeTableWord {nbits w : Nat} {i : Instr} (h : decodeTableWord nbits w = some i) :
    decode (BitVec.ofNat 10 (w % 2 ^ nbits)) = i := by
  unfold decodeTableWord decodeNumber at h
  by_cases hfits : w % 2 ^ nbits < 2 ^ 10
  · rw [if_pos hfits] at h
    exact Option.some.inj h
  · rw [if_neg hfits] at h; cases h

/-- Settles O10: presenting writes the two command ports, and the step runs what they decode to. -/
theorem fetchWordIsRunNext : Obligations.FetchWordIsRunNext := by
  unfold Obligations.FetchWordIsRunNext
  intro s nbits w i h
  have hdec : decode (s.withFetchWord nbits w).cmdWord = i := decode_of_decodeTableWord h
  refine ⟨rfl, hdec, rfl, execNext i (s.withFetchWord nbits w), exec_eq_execNext i _, ?_⟩
  rw [step_of_valid _ rfl, hdec]

/-- Settles O11: every arm of `exec` answers its next state. -/
theorem everyCommandCompletes : Obligations.EveryCommandCompletes := by
  unfold Obligations.EveryCommandCompletes
  exact fun i s => ⟨execNext i s, exec_eq_execNext i s⟩

end Sys2Proof.Machine
end

section
/-! PROOFS. The FrameAssembler's operations: what a marker does with an empty and with a malformed fragment, an
append, and the resync on garbage: O14, O15, O16, O21, O22 and O23. -/

namespace Sys2Proof.Machine

/-! ## The markers -/

theorem exec_marker {i : Instr} (s : State) (h : i = .feedStart ∨ i = .feedEnd) :
    exec i s = .next (flush s.cmdNow s.beginCommand) := by
  obtain rfl | rfl := h <;> rfl

theorem flush_of_empty (now : Time) {s : State} (h : s.faCnt = 0) : flush now s = s := if_pos h

theorem flush_of_filled (now : Time) {s : State} (h : s.faCnt ≠ 0) :
    flush now s = sessionFragment (decodeFragment s.fragment) now s.clearFragment := if_neg h

/-- A fragment that decodes to no record is dropped (42_decoder.md R131, 43_session.md R152). -/
theorem flush_of_malformed (now : Time) {s : State} (h0 : s.faCnt ≠ 0) (h12 : s.faCnt ≠ 12) :
    flush now s = s.clearFragment := by
  rw [flush_of_filled now h0, s.decode_fragment_of_ne h12]; rfl

/-- Settles O14: there is no fragment to hand on. -/
theorem markerOnEmptyBuffer : Obligations.MarkerOnEmptyBuffer := by
  unfold Obligations.MarkerOnEmptyBuffer
  intro i s hmarker hempty
  have hflush : flush s.cmdNow s.beginCommand = s.beginCommand := flush_of_empty _ hempty
  rw [exec_marker s hmarker, hflush]; rfl

/-- Settles O15: both markers are the same flush. -/
theorem feedEndEqualsFeedStart : Obligations.FeedEndEqualsFeedStart := by
  unfold Obligations.FeedEndEqualsFeedStart
  intro s
  rw [exec_marker s (.inr rfl), exec_marker s (.inl rfl)]

/-- Settles O16: the session is handed no record, so all that is left of the flush is the cleared buffer. -/
theorem markerDropsMalformedFragment : Obligations.MarkerDropsMalformedFragment := by
  unfold Obligations.MarkerDropsMalformedFragment
  intro i s hmarker h0 h12
  have hflush : flush s.cmdNow s.beginCommand = s.beginCommand.clearFragment := flush_of_malformed _ h0 h12
  rw [exec_marker s hmarker, hflush]; rfl

/-! ## Digits and garbage -/

theorem exec_feedHex (n : Nibble) (c : LetterCase) (s : State) :
    exec (.feedHex n c) s = .next (s.beginCommand.appendNibble n) := by
  rw [exec_eq_execNext, execNext_feedHex]

theorem exec_feedGarbage (b : Byte) (s : State) :
    exec (.feedGarbage b) s = .next (s.beginCommand.clearFragment.emit (.garbage b)) := by
  rw [exec_eq_execNext, execNext_feedGarbage]

/-- The port shows the event just emitted (10_state.md R41). -/
theorem State.eventPort_emit (e : Event) (s : State) : (s.emit e).eventPort = ⟨true, e.kind, e.data⟩ := rfl

/-- Settles O21: the append's equation, and the fragment it leaves, which is the nibble alone after an empty one. -/
theorem feedHexAppends : Obligations.FeedHexAppends := by
  unfold Obligations.FeedHexAppends
  intro n c s hroom
  have hfrag : (s.beginCommand.appendNibble n).fragment = .exact (s.faBuf.toList.take s.faCnt.val ++ [n]) :=
    s.beginCommand.fragment_appendNibble n hroom
  rw [exec_feedHex]
  refine ⟨?_, ?_⟩
  · rw [s.beginCommand.appendNibble_of_lt n hroom]; rfl
  · rintro t ⟨⟩
    exact ⟨hfrag, fun hempty => by simpa [hempty] using hfrag⟩

/-- Settles O22: with no room the append only sets the count. -/
theorem feedHexSaturates : Obligations.FeedHexSaturates := by
  unfold Obligations.FeedHexSaturates
  intro n c s hfull
  rw [exec_feedHex, s.beginCommand.appendNibble_of_le n hfull]; rfl

/-- Settles O23: the buffer is cleared whatever it held, and the port shows the emitted event. -/
theorem feedGarbageResyncs : Obligations.FeedGarbageResyncs := by
  unfold Obligations.FeedGarbageResyncs
  intro b s
  rw [exec_feedGarbage]
  refine ⟨rfl, ?_⟩
  rintro t ⟨⟩
  exact State.eventPort_emit (.garbage b) _

end Sys2Proof.Machine
end

section
/-! PROOFS. The FragmentDecoder: appended nibbles and the slices they are, DECODE against the wire's nibbles, and one
wrong nibble: O25 to O29. -/

namespace Sys2Proof.Machine

/-! ## A nibble appended to a bit vector -/

section AppendNibble

variable {w : Nat} (x : BitVec w) (n : Nibble)

@[simp] theorem extractLsb'_append_nibble_high (start len : Nat) :
    (x ++ n).extractLsb' (start + 4) len = x.extractLsb' start len :=
  BitVec.extractLsb'_append_eq_of_le (Nat.le_add_left 4 start)

@[simp] theorem extractLsb'_append_nibble_low : (x ++ n).extractLsb' 0 4 = n := BitVec.extractLsb'_append_eq_right

/-- A slice and the nibble below it are one longer slice. -/
@[simp] theorem extractLsb'_append_extractLsb'_nibble (start len : Nat) :
    x.extractLsb' (start + 4) len ++ x.extractLsb' start 4 = x.extractLsb' start (len + 4) :=
  BitVec.extractLsb'_append_extractLsb'_eq_extractLsb' rfl

theorem append_append_nibble {u : Nat} (y : BitVec u) : y ++ (x ++ n) = y ++ x ++ n := BitVec.append_assoc'

theorem setWidth_append_nibble (width : Nat) : (x ++ n).setWidth width = x.setWidth width <<< 4 ||| n.setWidth width :=
  BitVec.setWidth_append_eq_shiftLeft_setWidth_or

end AppendNibble

theorem append_nibbles_inj {hi lo hi' lo' : Nibble} : hi ++ lo = hi' ++ lo' ↔ hi = hi' ∧ lo = lo' := by
  refine ⟨fun h => ⟨?_, ?_⟩, fun ⟨hhi, hlo⟩ => hhi ▸ hlo ▸ rfl⟩
  · have hslice := congrArg (BitVec.extractLsb' (0 + 4) 4) h
    simpa only [extractLsb'_append_nibble_high, BitVec.extractLsb'_eq_self] using hslice
  · have hslice := congrArg (BitVec.extractLsb' 0 4) h
    simpa only [extractLsb'_append_nibble_low] using hslice

/-! ## DECODE and the wire -/

/-- The value field of a full buffer (42_decoder.md R134, R136). -/
theorem valueOf_toList (v : Vector Nibble 12) : valueOf v.toList = (recordOf v).value := by
  rw [toList_eq_nibbles, ← BitVec.setWidth_eq (recordOf v).value]
  simp [valueOf, nibbleAt, recordOf, setWidth_append_nibble, BitVec.shiftLeft_or_distrib, ← BitVec.shiftLeft_add,
    -BitVec.setWidth_eq]

theorem decodeNibbles_toList (v : Vector Nibble 12) : decodeNibbles v.toList = some (recordOf v) := by
  rw [decodeNibbles_of_length _ v.length_toList, typeOf_toList, valueOf_toList, receivedChecksum_toList,
    checksumMatches_toList]

/-- The fields of a full buffer are sent as the buffer's nibbles. -/
theorem wireNibbles_recordOf (v : Vector Nibble 12) :
    wireNibbles (recordOf v).type (recordOf v).value (recordOf v).checksum = v.toList := by
  rw [toList_eq_nibbles]
  simp [wireNibbles, recordOf]

/-- Every fragment that decodes is the nibbles of its record's fields. -/
theorem wireNibbles_of_decodeNibbles {f : List Nibble} {r : CardRecord} (h : decodeNibbles f = some r) :
    wireNibbles r.type r.value r.checksum = f := by
  by_cases hlen : f.length = 12
  · obtain ⟨v, rfl⟩ : ∃ v : Vector Nibble 12, v.toList = f := ⟨⟨f.toArray, hlen⟩, rfl⟩
    rw [decodeNibbles_toList] at h
    obtain rfl := Option.some.inj h
    exact wireNibbles_recordOf v
  · rw [decodeNibbles_of_length_ne f hlen] at h; cases h

/-- `wireNibbles` as a full buffer. -/
def wireVector (type : Byte) (value : BitVec 32) (checksum : Byte) : Vector Nibble 12 :=
  ⟨(wireNibbles type value checksum).toArray, rfl⟩

theorem recordOf_wireVector (type : Byte) (value : BitVec 32) (checksum : Byte) :
    recordOf (wireVector type value checksum) = packetRecord type value checksum := by
  simp [recordOf, wireVector, wireNibbles, packetRecord, packetChecksum, eq_comm]

/-- The round trip of 42_decoder.md R143. -/
theorem decodeNibbles_wireNibbles (type : Byte) (value : BitVec 32) (checksum : Byte) :
    decodeNibbles (wireNibbles type value checksum) = some (packetRecord type value checksum) := by
  rw [← recordOf_wireVector]
  exact decodeNibbles_toList (wireVector type value checksum)

/-- The validity of a full buffer, over its fields. -/
theorem recordOf_eq_packetRecord (v : Vector Nibble 12) :
    recordOf v = packetRecord (recordOf v).type (recordOf v).value (recordOf v).checksum := by
  apply Option.some.inj
  rw [← decodeNibbles_wireNibbles, wireNibbles_recordOf, decodeNibbles_toList]

/-- The bits of a full buffer's record, in arrival order (42_decoder.md R138). -/
theorem bits_recordOf (v : Vector Nibble 12) :
    (recordOf v).bits =
      v[0] ++ v[1] ++ v[2] ++ v[3] ++ v[4] ++ v[5] ++ v[6] ++ v[7] ++ v[8] ++ v[9] ++ v[10] ++ v[11] ++
        BitVec.ofBool (recordOf v).isValid := by
  simp only [CardRecord.bits, recordOf]
  rw [append_append_nibble (w := 28), append_append_nibble (w := 24), append_append_nibble (w := 20),
    append_append_nibble (w := 16), append_append_nibble (w := 12), append_append_nibble (w := 8),
    append_append_nibble (w := 4), append_append_nibble (w := 4)]

/-! ## One wrong nibble -/

/-- Validity nibble by nibble: the checksum's high nibble is the XOR of the high nibbles, its low nibble that of the
low ones (42_decoder.md R132, R137). -/
theorem recordOf_isValid_iff (v : Vector Nibble 12) :
    (recordOf v).isValid = true ↔
      v[0] ^^^ v[2] ^^^ v[4] ^^^ v[6] ^^^ v[8] = v[10] ∧ v[1] ^^^ v[3] ^^^ v[5] ^^^ v[7] ^^^ v[9] = v[11] := by
  simp only [recordOf, BitVec.xor_append, beq_iff_eq]
  exact append_nibbles_inj

/-- In a valid buffer the other nibbles determine the one at `k`: XOR cancels in each of its arguments. -/
theorem getElem_eq_of_isValid_set {v : Vector Nibble 12} {k : Fin 12} {n : Nibble} (hv : (recordOf v).isValid = true)
    (hset : (recordOf (v.set k n)).isValid = true) : v[k] = n := by
  rw [recordOf_isValid_iff] at hv hset
  obtain ⟨hhigh, hlow⟩ := hv
  fin_cases k <;> simpa [← hhigh, ← hlow, eq_comm (a := n)] using hset

/-! ## The statements -/

/-- Settles O25: DECODE tests the length first. -/
theorem otherLengthsDecodeToNothing : Obligations.OtherLengthsDecodeToNothing := by
  unfold Obligations.OtherLengthsDecodeToNothing
  exact ⟨rfl, decodeNibbles_of_length_ne⟩

/-- Settles O26: each field of the shift-written record is the concatenation, and the record is its own packet's. -/
theorem decodeOfTwelveNibbles : Obligations.DecodeOfTwelveNibbles := by
  unfold Obligations.DecodeOfTwelveNibbles
  intro v
  exact ⟨decodeNibbles_toList v, congrArg CardRecord.isValid (recordOf_eq_packetRecord v), bits_recordOf v⟩

/-- Settles O27: sending a record's fields inverts DECODE. -/
theorem decodeIsInjective : Obligations.DecodeIsInjective := by
  unfold Obligations.DecodeIsInjective
  refine fun f g hf _ => ⟨fun heq => ?_, congrArg decodeNibbles⟩
  have hrec := decodeNibbles_of_length f hf
  exact (wireNibbles_of_decodeNibbles hrec).symm.trans (wireNibbles_of_decodeNibbles (heq.symm.trans hrec))

/-- Settles O28: the round trip, where the received checksum is the computed one. -/
theorem correctChecksumDecodesValid : Obligations.CorrectChecksumDecodesValid := by
  unfold Obligations.CorrectChecksumDecodesValid
  intro type value
  rw [decodeNibbles_wireNibbles, packetRecord, beq_self_eq_true]

/-- Settles O29: were both fragments valid, the two nibbles at the position would be equal. -/
theorem singleNibbleErrorDetected : Obligations.SingleNibbleErrorDetected := by
  unfold Obligations.SingleNibbleErrorDetected
  intro v k n r hdec hvalid hne
  obtain rfl : recordOf v = r := Option.some.inj ((decodeNibbles_toList v).symm.trans hdec)
  refine ⟨recordOf (v.set k n), decodeNibbles_toList _, ?_⟩
  exact eq_false_of_ne_true fun hset => hne (getElem_eq_of_isValid_set hvalid hset)

end Sys2Proof.Machine
end

section
/-! PROOFS. O30: a packet's bytes run through the framer. The digits fill the buffer and touch nothing else, and the
END marker hands the buffer to the session. -/

namespace Sys2Proof.Machine

/-! ## A byte as a command -/

/-- A BYTE command has begun: its word and time stand on the port (30_encoding.md R94, 60_exceptions.md R207). -/
def State.beginByte (now : Time) (b : Byte) (s : State) : State :=
  State.beginCommand { s with cmdWord := commandWord 0 b, cmdNow := now }

/-- The state a BYTE command leads to. -/
def byteNext (now : Time) (s : State) (b : Byte) : State :=
  execNext (decodeByte b) { s with cmdWord := commandWord 0 b, cmdNow := now }

theorem decodeByte_opcode_ne_tick (b : Byte) : (decodeByte b).opcode ≠ .tick := by
  obtain ⟨_, _, h⟩ | ⟨_, _, h⟩ | ⟨_, _, _, h⟩ | ⟨_, _, _, _, h⟩ := decodeByte_cases b <;> rw [h] <;> exact nofun

/-- A BYTE command does not read the interval. -/
theorem runCommand_byteCommand (hb now : Time) (b : Byte) (s : State) :
    runCommand hb (byteCommand now b) s = .next (byteNext now s b) := by
  unfold runCommand byteCommand byteNext
  rw [decode_commandWord_zero, execAt_of_ne_tick hb _ _ (decodeByte_opcode_ne_tick b), exec_eq_execNext]

theorem runCommands_byteCommands (hb now : Time) (bs : List Byte) (s : State) :
    runCommands hb (bs.map (byteCommand now)) s = .next (bs.foldl (byteNext now) s) := by
  induction bs generalizing s with
  | nil => rfl
  | cons b bs ih =>
    rw [List.map_cons, runCommands, runCommand_byteCommand]
    exact ih _

/-- A digit in either case carries its nibble (30_encoding.md R86, R93). -/
theorem decodeByte_hexDigit_eq_feedHex (n : Nibble) (c : LetterCase) :
    decodeByte (hexDigit n c) = .feedHex n (hexCase (hexDigit n c)) := by
  cases c <;> revert n <;> decide

theorem byteNext_hexDigit (now : Time) (s : State) (n : Nibble) (c : LetterCase) :
    byteNext now s (hexDigit n c) = (s.beginByte now (hexDigit n c)).appendNibble n := by
  unfold byteNext
  rw [decodeByte_hexDigit_eq_feedHex, execNext_feedHex]; rfl

theorem byteNext_startMarker (now : Time) (s : State) :
    byteNext now s Config.startMarker = flush now (s.beginByte now Config.startMarker) := rfl

theorem byteNext_endMarker (now : Time) (s : State) :
    byteNext now s Config.endMarker = flush now (s.beginByte now Config.endMarker) := rfl

/-! ## What SESSION_FRAGMENT and FLUSH do to the buffer and the fault bit -/

@[simp] theorem sessionFragment_faCnt (r : Option CardRecord) (now : Time) (s : State) :
    (sessionFragment r now s).faCnt = s.faCnt := by
  obtain ⟨_, h⟩ | ⟨_, _, _, h⟩ | ⟨_, _, _, _, _, h⟩ | ⟨_, _, _, _, h⟩ := sessionFragment_cases r now s <;> simp [h]

@[simp] theorem sessionFragment_fltRsvd (r : Option CardRecord) (now : Time) (s : State) :
    (sessionFragment r now s).fltRsvd = s.fltRsvd := by
  obtain ⟨_, h⟩ | ⟨_, _, _, h⟩ | ⟨_, _, _, _, _, h⟩ | ⟨_, _, _, _, h⟩ := sessionFragment_cases r now s <;> simp [h]

@[simp] theorem sessionFragment_seq (r : Option CardRecord) (now : Time) (s : State) :
    (sessionFragment r now s).seq = s.seq := by
  obtain ⟨_, _, _, hseq⟩ := sessionFragment_sameHost r now s
  exact hseq

/-- A flush leaves the buffer empty (41_framer.md R105). -/
theorem flush_faCnt (now : Time) (s : State) : (flush now s).faCnt = 0 := by
  obtain ⟨hempty, h⟩ | ⟨_, h⟩ := flush_cases now s
  · rw [h, hempty]
  · rw [h, sessionFragment_faCnt, State.clearFragment_faCnt]

theorem State.bufferOf_nil {s : State} (h : s.faCnt = 0) : s.BufferOf [] :=
  ⟨fun _ => by simp [h], fun h13 => by simp [h] at h13⟩

/-! ## Everything but the framer and the command port -/

/-- The two states hold the same session, fault bit, history, event port and host. -/
abbrev State.SameBeyondFramer (s t : State) : Prop :=
  s.csCardP = t.csCardP ∧ s.csCard = t.csCard ∧ s.csLastP = t.csLastP ∧ s.csLastT = t.csLastT ∧
    s.fltRsvd = t.fltRsvd ∧ s.ev = t.ev ∧ s.evPort = t.evPort ∧ s.seq = t.seq

section SameBeyondFramer

variable {s t : State}

theorem State.SameBeyondFramer.trans {u : State} (h : s.SameBeyondFramer t) (h' : t.SameBeyondFramer u) :
    s.SameBeyondFramer u := by
  obtain ⟨hcardP, hcard, hlastP, hlastT, hflt, hev, hport, hseq⟩ := h
  rwa [State.SameBeyondFramer, hcardP, hcard, hlastP, hlastT, hflt, hev, hport, hseq]

theorem State.SameBeyondFramer.emit (e : Event) (h : s.SameBeyondFramer t) :
    (s.emit e).SameBeyondFramer (t.emit e) := by
  obtain ⟨hcardP, hcard, hlastP, hlastT, hflt, hev, _, hseq⟩ := h
  exact ⟨hcardP, hcard, hlastP, hlastT, hflt, congrArg (· ++ [e]) hev, rfl, hseq⟩

theorem State.SameBeyondFramer.refresh (now : Time) (h : s.SameBeyondFramer t) :
    (s.refresh now).SameBeyondFramer (t.refresh now) := by
  obtain ⟨hcardP, hcard, _, _, hrest⟩ := h
  exact ⟨hcardP, hcard, rfl, rfl, hrest⟩

theorem State.SameBeyondFramer.setCard (rec : CardRecord) (h : s.SameBeyondFramer t) :
    (s.setCard rec).SameBeyondFramer (t.setCard rec) := by
  obtain ⟨_, _, hrest⟩ := h
  exact ⟨rfl, rfl, hrest⟩

/-- SESSION_FRAGMENT reads nothing of the framer (43_session.md R150). -/
theorem State.SameBeyondFramer.sessionFragment (r : Option CardRecord) (now : Time) (h : s.SameBeyondFramer t) :
    (sessionFragment r now s).SameBeyondFramer (sessionFragment r now t) := by
  cases r with
  | none => exact h
  | some rec =>
    have hsame : s.same rec = t.same rec := by
      obtain ⟨hcardP, hcard, _⟩ := h
      rw [State.same, hcardP, hcard, State.same]
    simp only [Machine.sessionFragment, acceptRecord, hsame]
    split_ifs
    · exact h.refresh now
    · exact ((h.refresh now).setCard rec).emit _
    · exact h.emit _

end SameBeyondFramer

/-! ## The digits and the END marker -/

/-- Digits join the buffer, however many they are, and the event port aside change nothing else (41_framer.md R108). -/
theorem foldl_byteNext_hexDigits (now : Time) (c : LetterCase) (ns : List Nibble) {s : State} {buffer : List Nibble}
    (h : s.BufferOf buffer) :
    ((ns.map fun n => hexDigit n c).foldl (byteNext now) s).BufferOf (buffer ++ ns) ∧
      ((ns.map fun n => hexDigit n c).foldl (byteNext now) s).beginCommand.SameBeyondFramer s.beginCommand := by
  induction ns generalizing s buffer with
  | nil =>
    rw [List.append_nil]
    exact ⟨h, rfl, rfl, rfl, rfl, rfl, rfl, rfl, rfl⟩
  | cons n ns ih =>
    have hbegin : (s.beginByte now (hexDigit n c)).BufferOf buffer := h
    obtain ⟨hbuf, hsame⟩ := ih (hbegin.appendNibble n)
    rw [List.map_cons, List.foldl_cons, byteNext_hexDigit]
    exact ⟨by simpa using hbuf, by simpa [State.SameBeyondFramer, State.beginByte] using hsame⟩

/-- The END marker hands a filled buffer to the session (41_framer.md R105). -/
theorem byteNext_endMarker_of_bufferOf (now : Time) {s : State} {buffer : List Nibble} (h : s.BufferOf buffer)
    (hfilled : buffer ≠ []) :
    (byteNext now s Config.endMarker).SameBeyondFramer
      (sessionFragment (decodeNibbles buffer) now s.beginCommand) := by
  have hbegin : (s.beginByte now Config.endMarker).BufferOf buffer := h
  have hcnt : (s.beginByte now Config.endMarker).faCnt ≠ 0 := hfilled ∘ hbegin.eq_nil_iff.mpr
  rw [byteNext_endMarker, flush_of_filled now hcnt, hbegin.decode_fragment]
  exact State.SameBeyondFramer.sessionFragment _ now ⟨rfl, rfl, rfl, rfl, rfl, rfl, rfl, rfl⟩

/-- A packet leads where its END marker does, from START and the wire's nibbles (30_encoding.md R92). -/
theorem foldl_byteNext_encodePacket (now : Time) (s : State) (type : Byte) (value : BitVec 32) (checksum : Byte)
    (c : LetterCase) :
    (encodePacket type value checksum c).foldl (byteNext now) s =
      byteNext now (((wireNibbles type value checksum).map fun n => hexDigit n c).foldl (byteNext now)
        (byteNext now s Config.startMarker)) Config.endMarker := by
  rw [encodePacket, List.foldl_append, List.foldl_append]; rfl

/-- Settles O30: START empties the buffer, the digits fill it with the wire's nibbles, and END hands the session the
record they decode to. -/
theorem packetDeliversItsRecord : Obligations.PacketDeliversItsRecord := by
  unfold Obligations.PacketDeliversItsRecord
  intro hb s type value checksum c now
  have hstart : (byteNext now s Config.startMarker).BufferOf [] :=
    State.bufferOf_nil (by rw [byteNext_startMarker, flush_faCnt])
  obtain ⟨hbuf, hdigits⟩ := foldl_byteNext_hexDigits now c (wireNibbles type value checksum) hstart
  have hend := byteNext_endMarker_of_bufferOf now hbuf (List.cons_ne_nil _ _)
  rw [List.nil_append, decodeNibbles_wireNibbles] at hend
  obtain ⟨hcardP, hcard, hlastP, hlastT, hflt, hev, hport, hseq⟩ := hend.trans (hdigits.sessionFragment _ now)
  refine ⟨_, _, runCommand_byteCommand hb now _ s, runCommands_byteCommands hb now _ s, ?_⟩
  rw [foldl_byteNext_encodePacket]
  rw [sessionFragment_fltRsvd] at hflt
  rw [sessionFragment_seq] at hseq
  exact ⟨by rw [byteNext_endMarker, flush_faCnt], hflt, hseq, hcardP, hcard, hlastP, hlastT, hev, hport⟩

end Sys2Proof.Machine
end

section
/-! PROOFS. O46: each operation of the block keeps the history sound, so every command and every step does. -/

namespace Sys2Proof.Machine

section SoundHistory

variable {s : State}

theorem State.HistorySound.emit {e : Event} (hsound : s.HistorySound) (he : e.sound = true) :
    (s.emit e).HistorySound := by
  intro e' hmem
  rw [State.emit_ev, List.mem_append, List.mem_singleton] at hmem
  obtain hold | rfl := hmem
  · exact hsound e' hold
  · exact he

/-- The record's validity, read before any write, decides between INVALID and INSERTED (43_session.md R153, R156). -/
theorem sessionFragment_historySound (r : Option CardRecord) (now : Time) (hsound : s.HistorySound) :
    (sessionFragment r now s).HistorySound := by
  obtain ⟨_, h⟩ | ⟨rec, _, hinvalid, h⟩ | ⟨rec, _, _, _, _, h⟩ | ⟨rec, _, hvalid, _, h⟩ :=
    sessionFragment_cases r now s <;> rw [h]
  · exact hsound
  · exact hsound.emit (by simp [Event.sound, hinvalid])
  · exact hsound
  · exact State.HistorySound.emit (s := (s.refresh now).setCard rec) hsound hvalid

/-- A lapse needs `CS_LAST_P`, with which the session invariant gives a present card, and that one is valid
(10_state.md R39, 43_session.md R161). -/
theorem State.SessionInv.isValid_of_lapsed {hb now : Time} (hinv : s.SessionInv) (hlapsed : s.lapsed hb now = true) :
    s.csCard.isValid = true := by
  obtain ⟨hlastP, _⟩ := (State.lapsed_iff hb now s).mp hlapsed
  obtain ⟨hagree, hvalid⟩ := hinv
  exact hvalid (hagree ▸ hlastP)

theorem heartbeat_historySound (hb now : Time) (hinv : s.SessionInv) (hsound : s.HistorySound) :
    (heartbeat hb now s).HistorySound := by
  obtain ⟨hlapsed, h⟩ | ⟨_, h⟩ := heartbeat_cases hb now s <;> rw [h]
  · exact hsound.emit (hinv.isValid_of_lapsed hlapsed)
  · exact hsound

theorem execNext_historySound (i : Instr) (hinv : s.SessionInv) (hsound : s.HistorySound) :
    (execNext i s).HistorySound := by
  obtain h | ⟨_, _, _, h⟩ | ⟨_, _, h⟩ | ⟨_, _, hlapsed, h⟩ | ⟨_, _, h⟩ | ⟨_, _, h⟩ | ⟨_, _, h⟩ :=
    execNext_cases i s <;> rw [h]
  · exact hsound
  · simpa [State.HistorySound] using hsound
  · exact State.HistorySound.emit (s := s.beginCommand.clearFragment) hsound rfl
  · exact State.HistorySound.emit (s := s.beginCommand) hsound (hinv.isValid_of_lapsed hlapsed)
  · exact hsound
  · exact hsound
  · exact sessionFragment_historySound (s := s.beginCommand.clearFragment) _ _ hsound

theorem execAt_historySound {hb : Time} {i : Instr} {t : State} (hinv : s.SessionInv) (hsound : s.HistorySound)
    (h : execAt hb i s = .next t) : t.HistorySound := by
  obtain rfl | rfl := eq_of_execAt h
  · exact heartbeat_historySound (s := s.beginCommand) hb _ hinv hsound
  · exact execNext_historySound i hinv hsound

theorem stepAt_historySound {hb : Time} {t : State} (hinv : s.SessionInv) (hsound : s.HistorySound)
    (h : stepAt hb s = .next t) : t.HistorySound := by
  obtain ⟨u, _, hu, rfl⟩ | ⟨_, hhost⟩ := stepAt_cases h
  · have hkept : u.HistorySound := execAt_historySound hinv hsound hu
    exact hkept
  · obtain ⟨q, rfl⟩ | ⟨q, w, now, rfl⟩ | ⟨_, q, _, rfl, _⟩ := hostStep_cases hb s t hhost
    · exact hsound
    · exact hsound
    · exact nofun

end SoundHistory

/-- Settles O46: a step runs a command, which keeps the history sound, or is a host action, which keeps the history
or, restarting the block, empties it. -/
theorem historyStaysSound : Obligations.HistoryStaysSound := by
  unfold Obligations.HistoryStaysSound
  exact fun _ _ hinv hsound h => stepAt_historySound hinv hsound h

end Sys2Proof.Machine
end

section
/-! PROOFS. A marker on a full buffer hands the session its record, and SESSION_RESET: O17, O18, O19, O20, O37 and
O38. -/

namespace Sys2Proof.Machine

/-! ## SESSION_FRAGMENT of a record, case by case -/

section RecordRead

variable {rec : CardRecord} {s : State} (now : Time)

theorem sessionFragment_of_invalid (hinvalid : rec.isValid = false) :
    sessionFragment (some rec) now s = s.emit (.invalid rec) := by
  simp [sessionFragment, hinvalid]

theorem sessionFragment_of_repeat (hvalid : rec.isValid = true) (hpresent : s.csCardP = true)
    (hcard : s.csCard = rec) : sessionFragment (some rec) now s = s.refresh now := by
  simp [sessionFragment, acceptRecord, State.same, hvalid, hpresent, hcard]

theorem sessionFragment_of_new (hvalid : rec.isValid = true) (hnew : s.csCardP = true → s.csCard ≠ rec) :
    sessionFragment (some rec) now s = ((s.refresh now).setCard rec).emit (.inserted rec) := by
  have hsame : s.same rec = false := by simpa [State.same] using hnew
  simp [sessionFragment, acceptRecord, hsame, hvalid]

end RecordRead

/-! ## A marker on 12 nibbles -/

theorem flush_of_full (now : Time) {s : State} (hfull : s.faCnt = 12) :
    flush now s = sessionFragment (some (recordOf s.faBuf)) now s.clearFragment := by
  have hdecode : decodeFragment s.fragment = some (recordOf s.faBuf) := by
    rw [s.fragment_of_full hfull]; exact decodeNibbles_toList s.faBuf
  rw [flush_of_filled now (by simp [hfull]), hdecode]

theorem exec_marker_of_full {i : Instr} {s : State} (hmarker : i = .feedStart ∨ i = .feedEnd) (hfull : s.faCnt = 12) :
    exec i s = .next (sessionFragment (some (recordOf s.faBuf)) s.cmdNow s.beginCommand.clearFragment) := by
  have hbegin : s.beginCommand.faCnt = 12 := hfull
  rw [exec_marker s hmarker, flush_of_full _ hbegin, State.beginCommand_faBuf]

/-- Settles O17: an invalid record is emitted and writes nothing. -/
theorem markerReportsInvalidRecord : Obligations.MarkerReportsInvalidRecord := by
  unfold Obligations.MarkerReportsInvalidRecord
  intro i s hmarker hfull hinvalid
  rw [exec_marker_of_full hmarker hfull, sessionFragment_of_invalid _ hinvalid]; rfl

/-- Settles O18: a new record refreshes the heartbeat, becomes the card and is emitted. -/
theorem markerInsertsNewCard : Obligations.MarkerInsertsNewCard := by
  unfold Obligations.MarkerInsertsNewCard
  intro i s hmarker hfull hvalid hnew
  rw [exec_marker_of_full hmarker hfull, sessionFragment_of_new (s := s.beginCommand.clearFragment) _ hvalid hnew]; rfl

/-- Settles O19: the present card's record only refreshes the heartbeat. -/
theorem markerSuppressesRepeat : Obligations.MarkerSuppressesRepeat := by
  unfold Obligations.MarkerSuppressesRepeat
  intro i s hmarker hfull hvalid hpresent hcard
  rw [exec_marker_of_full hmarker hfull,
    sessionFragment_of_repeat (s := s.beginCommand.clearFragment) _ hvalid hpresent hcard]; rfl

/-- Settles O20: a repeat refreshes the card that is there (O19), and any other record becomes the card (O18). -/
theorem validReadRefreshesHeartbeat : Obligations.ValidReadRefreshesHeartbeat := by
  unfold Obligations.ValidReadRefreshesHeartbeat
  intro i s hmarker hfull hvalid
  by_cases hrepeat : s.csCardP = true ∧ s.csCard = recordOf s.faBuf
  · obtain ⟨hpresent, hcard⟩ := hrepeat
    exact ⟨_, markerSuppressesRepeat i s hmarker hfull hvalid hpresent hcard, rfl, rfl, hpresent, hcard⟩
  · exact ⟨_, markerInsertsNewCard i s hmarker hfull hvalid (not_and.mp hrepeat), rfl, rfl, rfl, rfl⟩

/-! ## The words of a kind -/

/-- The mask 0x300 keeps the kind bits of a word (30_encoding.md R81, R87). -/
theorem commandWord_and_kindMask (k : BitVec 2) (b : Byte) : commandWord k b &&& 0x300 = commandWord k 0 := by
  have hmask : (0x300 : CmdWord) = BitVec.allOnes 2 ++ (0 : Byte) := rfl
  rw [hmask]
  exact BitVec.and_append.trans (congrArg₂ (· ++ ·) BitVec.and_allOnes BitVec.and_zero)

theorem kindField_of_and_kindMask {w : CmdWord} {k : BitVec 2} (h : w &&& 0x300 = commandWord k 0) :
    kindField w = k := by
  rw [← commandWord_kindField_byteField w, commandWord_and_kindMask] at h
  simpa using congrArg kindField h

theorem decode_of_kindField_one {w : CmdWord} (h : kindField w = 1) : decode w = .tick (byteField w) := by
  simp [decode, h]

theorem decode_of_kindField_two {w : CmdWord} (h : kindField w = 2) : decode w = .sessionReset (byteField w) := by
  simp [decode, h]

/-! ## SESSION_RESET -/

theorem exec_sessionReset (ignored : Byte) (s : State) :
    exec (.sessionReset ignored) s = .next { s with csCardP := false, csLastP := false, evPort := none } := rfl

/-- Settles O37: the kind bits alone select the operation, and clearing the present bits twice is clearing them once. -/
theorem sessionResetEmptiesSession : Obligations.SessionResetEmptiesSession := by
  unfold Obligations.SessionResetEmptiesSession
  refine ⟨fun w hw => ⟨_, decode_of_kindField_two (kindField_of_and_kindMask hw)⟩, fun ignored again s => ?_⟩
  refine ⟨exec_sessionReset ignored s, ?_⟩
  rintro t ⟨⟩
  exact exec_sessionReset again _

/-- Settles O38: after the reset no card is present, so the record of the fragment that survived it is new (O18). -/
theorem firstReadAfterSessionResetInserts : Obligations.FirstReadAfterSessionResetInserts := by
  unfold Obligations.FirstReadAfterSessionResetInserts
  intro i ignored s t hmarker hreset hfull hvalid
  obtain rfl := Host.Outcome.next.inj ((exec_sessionReset ignored s).symm.trans hreset)
  exact ⟨_, markerInsertsNewCard i _ hmarker hfull hvalid nofun, rfl, rfl⟩

end Sys2Proof.Machine
end

section
/-! PROOFS. The heartbeat: what one TICK does, a second one, and any number of them: O31, O32, O33 and O34. -/

namespace Sys2Proof.Machine

section Heartbeat

variable {hb now : Time} {s : State}

/-! ## A lapsed heartbeat and any other -/

theorem heartbeat_of_lapsed (h : s.lapsed hb now = true) :
    heartbeat hb now s = (s.emit (.removed s.csCard)).clearSession := if_pos h

theorem heartbeat_of_not_lapsed (h : ¬ s.lapsed hb now = true) : heartbeat hb now s = s := if_neg h

theorem State.not_lapsed_of_csLastP (h : s.csLastP = false) : ¬ s.lapsed hb now = true := by
  simp [State.lapsed_iff, h]

/-- With a positive interval and a last valid read held, no lapse is a time within the interval (43_session.md R163). -/
theorem State.not_lapsed_iff_le (hpos : 0 < hb) (hlast : s.csLastP = true) :
    ¬ s.lapsed hb now = true ↔ now ≤ s.csLastT + hb := by
  simp [State.lapsed_iff, hpos, hlast]

/-- No heartbeat is left lapsed by a TICK (43_session.md R166). -/
theorem heartbeat_not_lapsed (hb now : Time) (s : State) : ¬ (heartbeat hb now s).lapsed hb now = true := by
  by_cases hlapsed : s.lapsed hb now = true
  · rw [heartbeat_of_lapsed hlapsed]
    exact State.not_lapsed_of_csLastP rfl
  · rwa [heartbeat_of_not_lapsed hlapsed]

/-! ## TICK -/

theorem execAt_tick_of_lapsed (ignored : Byte) (h : s.lapsed hb s.cmdNow = true) :
    execAt hb (.tick ignored) s = .next { s with
      csCardP := false, csLastP := false, ev := s.ev ++ [.removed s.csCard], evPort := some (.removed s.csCard) } := by
  have hbegin : s.beginCommand.lapsed hb s.cmdNow = true := h
  rw [execAt_tick, heartbeat_of_lapsed hbegin]; rfl

theorem execAt_tick_of_not_lapsed (ignored : Byte) (h : ¬ s.lapsed hb s.cmdNow = true) :
    execAt hb (.tick ignored) s = .next { s with evPort := none } := by
  have hbegin : ¬ s.beginCommand.lapsed hb s.cmdNow = true := h
  rw [execAt_tick, heartbeat_of_not_lapsed hbegin]; rfl

end Heartbeat

/-- Settles O31: the kind bits alone select the operation, and the lapse is the three conditions together. -/
theorem tickRemovesLapsedCard : Obligations.TickRemovesLapsedCard := by
  unfold Obligations.TickRemovesLapsedCard
  refine ⟨fun w hw => ⟨_, decode_of_kindField_one (kindField_of_and_kindMask hw)⟩, fun ignored s => ?_,
    fun hb ignored s => ⟨fun hpos hlast hlate => ?_, fun hquiet => ?_⟩⟩
  · rw [← execAt_config]
    split_ifs with h
    · obtain ⟨hpos, hlast, hlate⟩ := h
      exact execAt_tick_of_lapsed ignored ((State.lapsed_iff _ _ s).mpr ⟨hlast, hpos, hlate⟩)
    · refine execAt_tick_of_not_lapsed ignored fun hlapsed => h ?_
      obtain ⟨hlast, hpos, hlate⟩ := (State.lapsed_iff _ _ s).mp hlapsed
      exact ⟨hpos, hlast, hlate⟩
  · exact execAt_tick_of_lapsed ignored ((State.lapsed_iff _ _ s).mpr ⟨hlast, hpos, hlate⟩)
  · refine execAt_tick_of_not_lapsed ignored fun hlapsed => ?_
    obtain ⟨hlast, hpos, hlate⟩ := (State.lapsed_iff _ _ s).mp hlapsed
    obtain hzero | hnone | hsoon := hquiet
    · exact hpos.ne' hzero
    · exact Bool.false_ne_true (hnone.symm.trans hlast)
    · exact hlate.not_ge hsoon

/-- Settles O32: a TICK leaves nothing lapsed at its own time, and a removal leaves no last read to lapse at any. -/
theorem removalFiresOnce : Obligations.RemovalFiresOnce := by
  unfold Obligations.RemovalFiresOnce
  intro hb ignored again s t later h
  obtain rfl := Host.Outcome.next.inj ((execAt_tick hb ignored s).symm.trans h)
  refine ⟨execAt_tick_of_not_lapsed again ?_, fun hemitted => execAt_tick_of_not_lapsed again ?_⟩
  · rw [heartbeat_cmdNow]
    exact heartbeat_not_lapsed hb s.cmdNow s.beginCommand
  · obtain ⟨_, hremoved⟩ | ⟨_, hquiet⟩ := heartbeat_cases hb s.cmdNow s.beginCommand
    · refine State.not_lapsed_of_csLastP ?_
      rw [hremoved]; rfl
    · exact absurd (congrArg State.evPort hquiet) hemitted

/-- Settles O33: a lapsed heartbeat ends with no card, and any other keeps the card that goes with the last read. -/
theorem presenceExactAfterTick : Obligations.PresenceExactAfterTick := by
  unfold Obligations.PresenceExactAfterTick
  intro hb ignored s t hinv hpos h
  obtain ⟨hagree, _⟩ := hinv
  by_cases hlapsed : s.lapsed hb s.cmdNow = true
  · obtain rfl := Host.Outcome.next.inj ((execAt_tick_of_lapsed ignored hlapsed).symm.trans h)
    obtain ⟨_, _, hlate⟩ := (State.lapsed_iff _ _ s).mp hlapsed
    exact ⟨nofun, fun ⟨_, hsoon⟩ => absurd hsoon hlate.not_ge⟩
  · obtain rfl := Host.Outcome.next.inj ((execAt_tick_of_not_lapsed ignored hlapsed).symm.trans h)
    dsimp only
    rw [← hagree]
    exact ⟨fun hlast => ⟨hlast, (State.not_lapsed_iff_le hpos hlast).mp hlapsed⟩, And.left⟩

/-! ## A list of TICKs -/

/-- A TICK with its time (30_encoding.md R94). -/
def tickCommand (now : Time) : Command := { word := commandWord 1 0, now := now }

/-- A TICK command has begun: its word and time stand on the port (60_exceptions.md R207). -/
def State.beginTick (now : Time) (s : State) : State :=
  State.beginCommand { s with cmdWord := commandWord 1 0, cmdNow := now }

/-- The state a TICK from the port leads to. -/
def tickNext (hb : Time) (s : State) (now : Time) : State := heartbeat hb now (s.beginTick now)

theorem runCommand_tickCommand (hb now : Time) (s : State) :
    runCommand hb (tickCommand now) s = .next (tickNext hb s now) := by
  unfold runCommand tickCommand
  rw [decode_commandWord_one, execAt_tick]; rfl

theorem runCommands_tickCommands (hb : Time) (times : List Time) (s : State) :
    runCommands hb (times.map tickCommand) s = .next (times.foldl (tickNext hb) s) := by
  induction times generalizing s with
  | nil => rfl
  | cons now times ih =>
    rw [List.map_cons, runCommands, runCommand_tickCommand]
    exact ih _

/-- The two states hold the same session and the same history. -/
abbrev State.SameSession (s t : State) : Prop :=
  t.ev = s.ev ∧ t.csCardP = s.csCardP ∧ t.csCard = s.csCard ∧ t.csLastP = s.csLastP ∧ t.csLastT = s.csLastT

section Ticks

variable {hb now : Time} {s t : State} {times : List Time}

theorem State.SameSession.lapsed_eq (h : s.SameSession t) (hb now : Time) : t.lapsed hb now = s.lapsed hb now := by
  obtain ⟨_, _, _, hlastP, hlastT⟩ := h
  rw [State.lapsed, hlastP, hlastT, State.lapsed]

theorem tickNext_of_lapsed (h : s.lapsed hb now = true) :
    (tickNext hb s now).ev = s.ev ++ [.removed s.csCard] ∧ (tickNext hb s now).csCardP = false ∧
      (tickNext hb s now).csLastP = false := by
  have hbegin : (s.beginTick now).lapsed hb now = true := h
  rw [tickNext, heartbeat_of_lapsed hbegin]
  exact ⟨rfl, rfl, rfl⟩

theorem tickNext_of_not_lapsed (h : ¬ s.lapsed hb now = true) : s.SameSession (tickNext hb s now) := by
  have hbegin : ¬ (s.beginTick now).lapsed hb now = true := h
  rw [tickNext, heartbeat_of_not_lapsed hbegin]
  exact ⟨rfl, rfl, rfl, rfl, rfl⟩

theorem foldl_tickNext_of_not_lapsed (h : ∀ now ∈ times, ¬ s.lapsed hb now = true) :
    s.SameSession (times.foldl (tickNext hb) s) := by
  induction times generalizing s with
  | nil => exact ⟨rfl, rfl, rfl, rfl, rfl⟩
  | cons now times ih =>
    obtain ⟨hnow, htimes⟩ := List.forall_mem_cons.mp h
    have hfirst : s.SameSession (tickNext hb s now) := tickNext_of_not_lapsed hnow
    obtain ⟨hev, hcardP, hcard, hlastP, hlastT⟩ :=
      ih (s := tickNext hb s now) fun later hlater => hfirst.lapsed_eq hb later ▸ htimes later hlater
    obtain ⟨hev', hcardP', hcard', hlastP', hlastT'⟩ := hfirst
    exact ⟨hev.trans hev', hcardP.trans hcardP', hcard.trans hcard', hlastP.trans hlastP', hlastT.trans hlastT'⟩

/-- The first TICK that finds a lapse removes the card, and what follows it has no last read to find (43_session.md
R165). -/
theorem foldl_tickNext_of_lapsed (h : ∃ now ∈ times, s.lapsed hb now = true) :
    (times.foldl (tickNext hb) s).ev = s.ev ++ [.removed s.csCard] ∧
      (times.foldl (tickNext hb) s).csCardP = false ∧ (times.foldl (tickNext hb) s).csLastP = false := by
  induction times generalizing s with
  | nil => exact absurd h (by simp)
  | cons now times ih =>
    rw [List.foldl_cons]
    by_cases hnow : s.lapsed hb now = true
    · obtain ⟨hev, hcardP, hlastP⟩ := tickNext_of_lapsed hnow
      obtain ⟨hev', hcardP', _, hlastP', _⟩ :=
        foldl_tickNext_of_not_lapsed (times := times) (hb := hb) fun _ _ => State.not_lapsed_of_csLastP hlastP
      exact ⟨hev'.trans hev, hcardP'.trans hcardP, hlastP'.trans hlastP⟩
    · have hfirst : s.SameSession (tickNext hb s now) := tickNext_of_not_lapsed hnow
      have hrest : ∃ later ∈ times, s.lapsed hb later = true :=
        ((List.exists_mem_cons_iff _ _ _).mp h).resolve_left hnow
      obtain ⟨later, hmem, hlater⟩ := hrest
      obtain ⟨hev, hempty⟩ := ih ⟨later, hmem, (hfirst.lapsed_eq hb later).trans hlater⟩
      obtain ⟨hev', _, hcard', _⟩ := hfirst
      exact ⟨by rw [hev, hev', hcard'], hempty⟩

end Ticks

/-- Settles O34: with the card goes a last valid read, so a time beyond the interval is a lapse, any other none. -/
theorem lapseRemovesExactlyOnce : Obligations.LapseRemovesExactlyOnce := by
  unfold Obligations.LapseRemovesExactlyOnce
  intro hb s times hinv hpresent hpos
  obtain ⟨hagree, _⟩ := hinv
  have hlast : s.csLastP = true := hagree.trans hpresent
  refine ⟨_, runCommands_tickCommands hb times s, fun ⟨now, hmem, hlate⟩ => ?_, fun hsoon => ?_⟩
  · exact foldl_tickNext_of_lapsed ⟨now, hmem, (State.lapsed_iff hb now s).mpr ⟨hlast, hpos, hlate⟩⟩
  · obtain ⟨hev, hcardP, hcard, hlastP, _⟩ := foldl_tickNext_of_not_lapsed
      (times := times) fun now hmem => (State.not_lapsed_iff_le hpos hlast).mpr (hsoon now hmem)
    exact ⟨hev, hcardP.trans hpresent, hlastP.trans hlast, hcard⟩

end Sys2Proof.Machine
end

section
/-! PROOFS. The host's actions, place by place: what each keeps of a running mode, what the idle host's request does,
and O51 and O52. -/

namespace Sys2Proof.Machine

/-! ## The action at each place -/

section Places

variable {hb : Time} {s : State} {m : HostMode}

theorem hostStep_of_idle (hloc : s.seq.loc = .idle) : hostStep hb s = hostCall hb s := by
  unfold hostStep; rw [hloc]

theorem hostStep_of_deadline {timeout : Option Time} (hloc : s.seq.loc = .deadline timeout) :
    hostStep hb s = .next (hostDeadline timeout s) := by
  unfold hostStep; rw [hloc]

theorem hostStep_of_top (hloc : s.seq.loc = .top m) : hostStep hb s = .next (hostTop m s) := by
  unfold hostStep; rw [hloc]

theorem hostStep_of_poll (hloc : s.seq.loc = .poll m) : hostStep hb s = .next (hostPoll m s) := by
  unfold hostStep; rw [hloc]

theorem hostStep_of_tick (hloc : s.seq.loc = .tick m) : hostStep hb s = .next (hostTick m s) := by
  unfold hostStep; rw [hloc]

theorem hostStep_of_hook (hloc : s.seq.loc = .hook m) : hostStep hb s = .next (hostHook m s) := by
  unfold hostStep; rw [hloc]

theorem hostStep_of_acts {actions : List HookAction} (hloc : s.seq.loc = .acts m actions) :
    hostStep hb s = hostActs m actions s := by
  unfold hostStep; rw [hloc]

/-! ## The branches of a poll and of the deadline -/

theorem hostPoll_of_byte {b : Byte} (hpoll : s.seq.drawPoll.1 = some b) :
    hostPoll m s = State.present (commandWord 0 b) s.seq.drawPoll.2.readClock.1
      { s with seq := { s.seq.drawPoll.2.readClock.2 with loc := .tick m } } := by
  unfold hostPoll; rw [hpoll]

theorem hostPoll_of_none (hnone : s.seq.drawPoll.1 = none) :
    hostPoll m s = { s with seq := { s.seq.drawPoll.2 with loc := .tick m } } := by
  unfold hostPoll; rw [hnone]

variable {q : Sequencer}

theorem Sequencer.checkDeadline_of_none (hd : q.deadline = none) :
    q.checkDeadline = { q with loc := .poll .readOne } := by
  unfold Sequencer.checkDeadline; rw [hd]

theorem Sequencer.checkDeadline_of_le {d : Time} (hd : q.deadline = some d) (hle : d ≤ q.readClock.1) :
    q.checkDeadline = q.readClock.2.finish (.card none) := by
  unfold Sequencer.checkDeadline; rw [hd]; exact if_pos hle

theorem Sequencer.checkDeadline_of_lt {d : Time} (hd : q.deadline = some d) (hlt : q.readClock.1 < d) :
    q.checkDeadline = { q.readClock.2 with loc := .poll .readOne } := by
  unfold Sequencer.checkDeadline; rw [hd]; exact if_neg (not_le.mpr hlt)

theorem Sequencer.atTop_events_of_stop (hstop : q.drawStop.stop = true) :
    q.atTop .events = q.drawStop.finish .events := if_pos hstop

theorem Sequencer.atTop_events_of_go (hgo : q.drawStop.stop = false) :
    q.atTop .events = { q.drawStop with loc := .poll .events } := if_neg (by simp [hgo])

theorem Sequencer.atTop_readOne_of_stop (hstop : q.drawStop.stop = true) :
    q.atTop .readOne = q.drawStop.finish (.card q.result) := if_pos hstop

theorem Sequencer.atTop_readOne_of_go (hgo : q.drawStop.stop = false) :
    q.atTop .readOne = q.drawStop.checkDeadline := if_neg (by simp [hgo])

end Places

/-! ## What the draws keep -/

/-- `q'` comes from `q` by draws and stop requests: the result and the returned values stand, a stop request is not
lost, and the clock does not go back (44_poll_loop.md R180, R193). -/
structure Sequencer.Advances (q q' : Sequencer) : Prop where
  result_eq : q'.result = q.result
  returns_eq : q'.returns = q.returns
  stop_of_stop : q.stop = true → q'.stop = true
  clock_le : q.clock ≤ q'.clock

section Draws

variable {q q' q'' : Sequencer}

theorem Sequencer.Advances.refl (q : Sequencer) : q.Advances q := ⟨rfl, rfl, id, le_rfl⟩

theorem Sequencer.Advances.trans (h : q.Advances q') (h' : q'.Advances q'') : q.Advances q'' where
  result_eq := h'.result_eq.trans h.result_eq
  returns_eq := h'.returns_eq.trans h.returns_eq
  stop_of_stop := h'.stop_of_stop ∘ h.stop_of_stop
  clock_le := h.clock_le.trans h'.clock_le

theorem Sequencer.advances_drawPoll (q : Sequencer) : q.Advances q.drawPoll.2 :=
  ⟨q.drawPoll_result, q.drawPoll_returns, q.drawPoll_stop.trans, q.drawPoll_clock.ge⟩

theorem Sequencer.advances_drawHook (q : Sequencer) : q.Advances q.drawHook.2 :=
  ⟨q.drawHook_result, q.drawHook_returns, q.drawHook_stop.trans, q.drawHook_clock.ge⟩

theorem Sequencer.advances_drawStop (q : Sequencer) : q.Advances q.drawStop :=
  ⟨q.drawStop_result, q.drawStop_returns, q.drawStop_stop_of_stop, q.drawStop_clock.ge⟩

theorem Sequencer.advances_readClock (q : Sequencer) : q.Advances q.readClock.2 :=
  ⟨q.readClock_result, q.readClock_returns, q.readClock_stop.trans, q.le_readClock.trans q.readClock_clock.ge⟩

end Draws

/-! ## What an action of a running mode keeps -/

/-- What holds of every action of a running mode: `t` follows `s` with the same result, no stop request lost, a clock
that does not go back, no call entered, and a mode that ends at its top alone; a BYTE or TICK it issues carries the
latest reading (44_poll_loop.md R180, R182, R186, R187). -/
structure State.ModeStep (s t : State) : Prop where
  result_eq : t.seq.result = s.seq.result
  stop_of_stop : s.seq.stop = true → t.seq.stop = true
  clock_le : s.seq.clock ≤ t.seq.clock
  settingUp_eq : t.seq.loc.settingUp = false
  inReadOne_of_inReadOne : t.seq.loc.inReadOne = true → s.seq.loc.inReadOne = true
  stays : (∀ m, s.seq.loc ≠ .top m) → t.seq.loc.inReadOne = s.seq.loc.inReadOne ∧ t.seq.returns = s.seq.returns
  cmdNow_eq : s.cmdValid = false → t.cmdValid = true → kindField t.cmdWord < 2 → t.cmdNow = t.seq.clock

section Actions

variable {s : State} {q : Sequencer} {m : HostMode} {l : HostLoc}

/-- The host goes on to another place of the same mode. -/
theorem State.ModeStep.move (hq : s.seq.Advances q) (hmode : l.inReadOne = s.seq.loc.inReadOne)
    (hsetup : l.settingUp = false) : s.ModeStep { s with seq := { q with loc := l } } where
  result_eq := hq.result_eq
  stop_of_stop := hq.stop_of_stop
  clock_le := hq.clock_le
  settingUp_eq := hsetup
  inReadOne_of_inReadOne := hmode.symm.trans
  stays _ := ⟨hmode, hq.returns_eq⟩
  cmdNow_eq hnone hsome := absurd hsome (by simp [hnone])

/-- The host presents a command and goes on to another place of the same mode. -/
theorem State.ModeStep.issue {w : CmdWord} {now : Time} (hq : s.seq.Advances q)
    (hmode : l.inReadOne = s.seq.loc.inReadOne) (hsetup : l.settingUp = false)
    (hnow : kindField w < 2 → now = q.clock) :
    s.ModeStep (State.present w now { s with seq := { q with loc := l } }) :=
  { State.ModeStep.move hq hmode hsetup with cmdNow_eq := fun _ _ => hnow }

/-- The mode ends at its top. -/
theorem State.ModeStep.finish (r : CallResult) (hq : s.seq.Advances q) (htop : s.seq.loc = .top m) :
    s.ModeStep { s with seq := q.finish r } where
  result_eq := hq.result_eq
  stop_of_stop := hq.stop_of_stop
  clock_le := hq.clock_le
  settingUp_eq := rfl
  inReadOne_of_inReadOne := nofun
  stays hnot := absurd htop (hnot m)
  cmdNow_eq hnone hsome := absurd hsome (by simp [hnone])

theorem hostDeadline_modeStep {timeout : Option Time} (hloc : s.seq.loc = .deadline timeout) :
    s.ModeStep (hostDeadline timeout s) := by
  cases timeout with
  | none =>
    have hq : s.seq.Advances { s.seq with deadline := none } := ⟨rfl, rfl, id, le_rfl⟩
    exact .move hq (by rw [hloc]; rfl) rfl
  | some d =>
    obtain ⟨hresult, hreturns, hstop, hclock⟩ := s.seq.advances_readClock
    have hq : s.seq.Advances { s.seq.readClock.2 with deadline := some (s.seq.readClock.1 + d) } :=
      ⟨hresult, hreturns, hstop, hclock⟩
    exact .move hq (by rw [hloc]; rfl) rfl

/-- READ_ONE's deadline check ends the call or goes on to poll (44_poll_loop.md R187, R190). -/
theorem Sequencer.checkDeadline_cases (q : Sequencer) :
    ∃ q', q.Advances q' ∧
      (q.checkDeadline = q'.finish (.card none) ∨ q.checkDeadline = { q' with loc := .poll .readOne }) := by
  cases hd : q.deadline with
  | none => exact ⟨q, .refl q, .inr (Sequencer.checkDeadline_of_none hd)⟩
  | some d =>
    refine ⟨_, q.advances_readClock, ?_⟩
    obtain hle | hlt := le_or_gt d q.readClock.1
    · exact .inl (Sequencer.checkDeadline_of_le hd hle)
    · exact .inr (Sequencer.checkDeadline_of_lt hd hlt)

/-- The top ends the mode or goes on to poll (44_poll_loop.md R186, R187). -/
theorem Sequencer.atTop_cases (m : HostMode) (q : Sequencer) :
    ∃ q', q.Advances q' ∧ ((∃ r, q.atTop m = q'.finish r) ∨ q.atTop m = { q' with loc := .poll m }) := by
  cases m with
  | events =>
    refine ⟨_, q.advances_drawStop, ?_⟩
    obtain hstop | hgo := Bool.eq_false_or_eq_true q.drawStop.stop
    · exact .inl ⟨_, Sequencer.atTop_events_of_stop hstop⟩
    · exact .inr (Sequencer.atTop_events_of_go hgo)
  | readOne =>
    obtain hstop | hgo := Bool.eq_false_or_eq_true q.drawStop.stop
    · exact ⟨_, q.advances_drawStop, .inl ⟨_, Sequencer.atTop_readOne_of_stop hstop⟩⟩
    · obtain ⟨q', hq', h⟩ := q.drawStop.checkDeadline_cases
      rw [Sequencer.atTop_readOne_of_go hgo]
      exact ⟨q', q.advances_drawStop.trans hq', h.imp_left fun h => ⟨_, h⟩⟩

theorem hostTop_modeStep (hloc : s.seq.loc = .top m) : s.ModeStep (hostTop m s) := by
  obtain ⟨q, hq, ⟨r, h⟩ | h⟩ := s.seq.atTop_cases m <;> rw [hostTop, h]
  · exact .finish r hq hloc
  · exact .move hq (by rw [hloc]; rfl) rfl

theorem hostPoll_modeStep (hloc : s.seq.loc = .poll m) : s.ModeStep (hostPoll m s) := by
  cases hpoll : s.seq.drawPoll.1 with
  | none =>
    rw [hostPoll_of_none hpoll]
    exact .move s.seq.advances_drawPoll (by rw [hloc]; rfl) rfl
  | some b =>
    rw [hostPoll_of_byte hpoll]
    exact .issue (s.seq.advances_drawPoll.trans s.seq.drawPoll.2.advances_readClock) (by rw [hloc]; rfl) rfl
      fun _ => (Sequencer.readClock_clock _).symm

theorem hostTick_modeStep (hloc : s.seq.loc = .tick m) : s.ModeStep (hostTick m s) :=
  .issue s.seq.advances_readClock (by rw [hloc]; rfl) rfl fun _ => s.seq.readClock_clock.symm

theorem hostHook_modeStep (hloc : s.seq.loc = .hook m) : s.ModeStep (hostHook m s) :=
  .move s.seq.advances_drawHook (by rw [hloc]; rfl) rfl

/-- A hook that issues a SESSION_RESET presents its word; any other word is refused (44_poll_loop.md R183). -/
theorem hostActs_of_issue {w : CmdWord} {rest : List HookAction} (hkind : kindField w = 2) :
    hostActs m (.issue w :: rest) s =
      .next (State.present w s.cmdNow { s with seq := { s.seq with loc := .acts m rest } }) := if_pos hkind

theorem hostActs_of_issue_refused {w : CmdWord} {rest : List HookAction} (hkind : kindField w ≠ 2) :
    hostActs m (.issue w :: rest) s = .refused (.hookOutsideSpec w) := if_neg hkind

theorem hostActs_modeStep {actions : List HookAction} {t : State} (hloc : s.seq.loc = .acts m actions)
    (h : hostActs m actions s = .next t) : s.ModeStep t := by
  have hmode : ∀ rest, (HostLoc.acts m rest).inReadOne = s.seq.loc.inReadOne := by rw [hloc]; exact fun _ => rfl
  rcases actions with _ | ⟨_ | _ | w, rest⟩
  · obtain rfl := Host.Outcome.next.inj h
    exact .move (.refl _) (hmode []) rfl
  · obtain rfl := Host.Outcome.next.inj h
    have hq : s.seq.Advances { s.seq with seen := some s.status } := ⟨rfl, rfl, id, le_rfl⟩
    exact .move hq (hmode rest) rfl
  · obtain rfl := Host.Outcome.next.inj h
    have hq : s.seq.Advances { s.seq with stop := true } := ⟨rfl, rfl, fun _ => rfl, le_rfl⟩
    exact .move hq (hmode rest) rfl
  · by_cases hkind : kindField w = 2
    · obtain rfl := Host.Outcome.next.inj ((hostActs_of_issue hkind).symm.trans h)
      exact .issue (.refl _) (hmode rest) rfl fun hlt => absurd hlt (by simp [hkind])
    · cases (hostActs_of_issue_refused hkind).symm.trans h

theorem hostStep_modeStep {hb : Time} {t : State} (hrun : s.seq.loc ≠ .idle) (h : hostStep hb s = .next t) :
    s.ModeStep t := by
  cases hloc : s.seq.loc with
  | idle => exact absurd hloc hrun
  | deadline timeout =>
    obtain rfl := Host.Outcome.next.inj ((hostStep_of_deadline hloc).symm.trans h)
    exact hostDeadline_modeStep hloc
  | top m =>
    obtain rfl := Host.Outcome.next.inj ((hostStep_of_top hloc).symm.trans h)
    exact hostTop_modeStep hloc
  | poll m =>
    obtain rfl := Host.Outcome.next.inj ((hostStep_of_poll hloc).symm.trans h)
    exact hostPoll_modeStep hloc
  | tick m =>
    obtain rfl := Host.Outcome.next.inj ((hostStep_of_tick hloc).symm.trans h)
    exact hostTick_modeStep hloc
  | hook m =>
    obtain rfl := Host.Outcome.next.inj ((hostStep_of_hook hloc).symm.trans h)
    exact hostHook_modeStep hloc
  | acts m actions => exact hostActs_modeStep hloc ((hostStep_of_acts hloc).symm.trans h)

/-! ## The idle host's request -/

/-- No request reads the clock, and the one that enters READ_ONE clears its result and presents a SESSION_RESET
(44_poll_loop.md R187). -/
theorem hostCall_next {hb : Time} {t : State} (hidle : s.seq.loc = .idle) (h : hostCall hb s = .next t) :
    t.seq.clock = s.seq.clock ∧
    (t.seq.loc.inReadOne = true → t.seq.loc.settingUp = true ∧ t.cmdValid = true ∧ kindField t.cmdWord = 2 ∧
      t.seq.result = none) := by
  have hout : s.seq.loc.inReadOne ≠ true := by rw [hidle]; exact nofun
  unfold hostCall at h
  cases hcalls : s.seq.calls with
  | nil =>
    rw [hcalls] at h
    obtain rfl := Host.Outcome.next.inj h
    exact ⟨rfl, fun hin => absurd hin hout⟩
  | cons call rest =>
    rw [hcalls] at h
    cases call with
    | construct v =>
      obtain ⟨_, _, rfl⟩ := State.construct_next h
      exact ⟨rfl, fun hin => absurd hin hout⟩
    | runEvents =>
      obtain rfl := Host.Outcome.next.inj h
      exact ⟨rfl, nofun⟩
    | readOne timeout =>
      obtain rfl := Host.Outcome.next.inj h
      exact ⟨rfl, fun _ => ⟨rfl, rfl, kindField_commandWord 2 0, rfl⟩⟩
    | command | openTransport | closeTransport | blockReset | requestStop =>
      obtain rfl := Host.Outcome.next.inj h
      exact ⟨rfl, fun hin => absurd hin hout⟩

end Actions

/-- Settles O51: a command leaves the clock alone, and a host action is the idle host's request or a running mode's. -/
theorem clockReadingsNeverDecrease : Obligations.ClockReadingsNeverDecrease := by
  unfold Obligations.ClockReadingsNeverDecrease
  intro s t h
  obtain ⟨u, hvalid, hu, rfl⟩ | ⟨hvalid, hhost⟩ := stepAt_cases h
  · obtain ⟨_, _, _, hseq⟩ := execAt_sameHost hu
    have hclock : u.completeCommand.seq.clock = s.seq.clock := by simp [hseq]
    exact ⟨hclock.ge, fun hnone => absurd hvalid (by simp [hnone])⟩
  · by_cases hidle : s.seq.loc = .idle
    · obtain ⟨hclock, _⟩ := hostCall_next hidle ((hostStep_of_idle hidle).symm.trans hhost)
      exact ⟨hclock.ge, fun _ _ hrun => absurd hidle hrun⟩
    · have hmove := hostStep_modeStep hidle hhost
      exact ⟨hmove.clock_le, fun hnone hsome _ => hmove.cmdNow_eq hnone hsome⟩

/-- Settles O52: the action at each place, and a poll with and without a byte. -/
theorem iterationOrder : Obligations.IterationOrder := by
  unfold Obligations.IterationOrder
  intro s m hvalid
  rw [step_of_not_valid s hvalid]
  refine ⟨fun hloc => ⟨_, hostStep_of_poll hloc, ?_⟩, fun hloc => ⟨_, hostStep_of_tick hloc, rfl, rfl, rfl⟩,
    fun hloc => ⟨_, hostStep_of_hook hloc, rfl, hvalid⟩, fun hloc => ⟨_, hostStep_of_acts hloc, rfl, hvalid⟩⟩
  cases hpoll : s.seq.drawPoll.1 with
  | none =>
    rw [hostPoll_of_none hpoll]
    exact ⟨rfl, nofun, fun _ => hvalid⟩
  | some b =>
    rw [hostPoll_of_byte hpoll]
    exact ⟨rfl, by rintro _ ⟨⟩; exact ⟨rfl, rfl⟩, nofun⟩

end Sys2Proof.Machine
end

section
/-! PROOFS. READ_ONE's insertion watcher and its invariant: O57, O58 and O59. -/

namespace Sys2Proof.Machine

/-! ## The watcher and the forwarding of an event -/

section Watcher

variable {q : Sequencer} {rec : CardRecord}

theorem Sequencer.watch_of_inserted (hrun : q.loc.inReadOne = true) (hnone : q.result = none) :
    q.watch (.inserted rec) = { q with result := some rec, stop := true } := if_pos (by simp [hrun, hnone])

/-- The watcher acts on an insertion in READ_ONE without a result, and on nothing else (44_poll_loop.md R188). -/
theorem Sequencer.watch_cases (e : Event) (q : Sequencer) :
    q.watch e = q ∨ ∃ rec, e = .inserted rec ∧ q.loc.inReadOne = true ∧ q.result = none := by
  cases e with
  | inserted rec =>
    by_cases hacts : q.loc.inReadOne = true ∧ q.result = none
    · exact .inr ⟨rec, rfl, hacts⟩
    · exact .inl (if_neg (by simpa using hacts))
  | removed | invalid | garbage => exact .inl rfl

theorem Sequencer.take_garbage (b : Byte) (q : Sequencer) :
    q.take (some (.garbage b)) = { q with observed := q.observed ++ [.garbage b] } := rfl

/-- A card event goes to the sink, and not to the observability hook (44_poll_loop.md R185). -/
theorem Sequencer.take_cardEvent {e : Event} (hcard : ∀ b, e ≠ .garbage b) (q : Sequencer) :
    (q.take (some e)).sink = q.sink ++ [e] ∧ (q.take (some e)).observed = q.observed := by
  cases e with
  | inserted rec => exact ⟨congrArg (· ++ _) (q.watch_sink _), q.watch_observed _⟩
  | removed | invalid => exact ⟨rfl, rfl⟩
  | garbage b => exact absurd rfl (hcard b)

theorem Sequencer.take_of_inserted (hrun : q.loc.inReadOne = true) (hnone : q.result = none) :
    (q.take (some (.inserted rec))).result = some rec ∧ (q.take (some (.inserted rec))).stop = true := by
  simp [Sequencer.take, Sequencer.watch_of_inserted hrun hnone]

/-- What taking the port's event does to the result and the stop flag: an insertion in READ_ONE without a result sets
both, and everything else leaves both (44_poll_loop.md R188). -/
theorem Sequencer.take_cases (p : Option Event) (q : Sequencer) :
    ((q.take p).result = q.result ∧ (q.take p).stop = q.stop) ∨
    (∃ rec, p = some (.inserted rec) ∧ q.loc.inReadOne = true ∧ q.result = none ∧
      (q.take p).result = some rec ∧ (q.take p).stop = true) := by
  cases p with
  | none => exact .inl ⟨rfl, rfl⟩
  | some e =>
    obtain h | ⟨rec, rfl, hrun, hnone⟩ := q.watch_cases e
    · exact .inl (by simp [Sequencer.take, h])
    · exact .inr ⟨rec, rfl, hrun, hnone, Sequencer.take_of_inserted hrun hnone⟩

end Watcher

/-! ## A card where there was none -/

section Insertion

variable {hb : Time} {s t : State}

theorem sessionFragment_empty_or_inserts (r : Option CardRecord) (now : Time) (hempty : s.csCardP = false) :
    (sessionFragment r now s).csCardP = false ∨
      ∃ rec, (sessionFragment r now s).evPort = some (.inserted rec) := by
  obtain ⟨_, h⟩ | ⟨_, _, _, h⟩ | ⟨_, _, _, hpresent, _, h⟩ | ⟨rec, _, _, _, h⟩ :=
    sessionFragment_cases r now s <;> rw [h]
  · exact .inl hempty
  · exact .inl hempty
  · exact absurd hpresent (by simp [hempty])
  · exact .inr ⟨rec, rfl⟩

theorem heartbeat_csCardP (now : Time) (hempty : s.csCardP = false) : (heartbeat hb now s).csCardP = false := by
  obtain ⟨_, h⟩ | ⟨_, h⟩ := heartbeat_cases hb now s <;> rw [h]
  · rfl
  · exact hempty

/-- A card gets into an empty session by an insertion alone (43_session.md R156). -/
theorem execNext_empty_or_inserts (i : Instr) (hempty : s.csCardP = false) :
    (execNext i s).csCardP = false ∨ ∃ rec, (execNext i s).evPort = some (.inserted rec) := by
  obtain h | ⟨_, _, _, h⟩ | ⟨_, _, h⟩ | ⟨_, _, _, h⟩ | ⟨_, _, h⟩ | ⟨_, _, h⟩ | ⟨_, _, h⟩ := execNext_cases i s
  case inr.inr.inr.inr.inr.inr =>
    rw [h]; exact sessionFragment_empty_or_inserts (s := s.beginCommand.clearFragment) _ _ hempty
  all_goals exact .inl (by simp [h, hempty])

theorem execAt_empty_or_inserts {i : Instr} (hempty : s.csCardP = false) (h : execAt hb i s = .next t) :
    t.csCardP = false ∨ ∃ rec, t.evPort = some (.inserted rec) := by
  obtain rfl | rfl := eq_of_execAt h
  · exact .inl (heartbeat_csCardP (s := s.beginCommand) _ hempty)
  · exact execNext_empty_or_inserts i hempty

/-- SESSION_RESET leaves no card (43_session.md R170). -/
theorem execAt_csCardP_of_sessionReset (hkind : kindField s.cmdWord = 2)
    (h : execAt hb (decode s.cmdWord) s = .next t) : t.csCardP = false := by
  rw [decode_of_kindField_two hkind] at h
  obtain rfl := Host.Outcome.next.inj h
  rfl

/-! ## The invariant of READ_ONE -/

/-- A command keeps the invariant: the one of READ_ONE's entry empties the session, and a later one that puts a card
into it emits the insertion, which gives the call its result (44_poll_loop.md R187, R188, R189). -/
theorem State.ReadOneInv.completeCommand (hinv : s.ReadOneInv) (hvalid : s.cmdValid = true)
    (h : execAt hb (decode s.cmdWord) s = .next t) : t.completeCommand.ReadOneInv := by
  obtain ⟨hreset, hempty, hstop⟩ := hinv
  obtain ⟨_, _, _, hseq⟩ := execAt_sameHost h
  have htake := s.seq.take_cases t.evPort
  simp only [State.ReadOneInv, State.ReadOneStarted, State.completeCommand_seq, State.completeCommand_cmdValid,
    State.completeCommand_csCardP, Sequencer.take_loc, hseq]
  refine ⟨fun _ => nofun, fun ⟨hrun, _⟩ hnone => ?_, fun hrun hsome => ?_⟩
  · obtain ⟨hresult, _⟩ | ⟨rec, _, _, _, hresult, _⟩ := htake
    · cases hsetup : s.seq.loc.settingUp with
      | true => exact execAt_csCardP_of_sessionReset (hreset hsetup hvalid) h
      | false =>
        have hnone' : s.seq.result = none := hresult.symm.trans hnone
        have hstarted : s.ReadOneStarted := ⟨hrun, fun hsetup' => absurd hsetup' (by simp [hsetup])⟩
        obtain hkept | ⟨rec, hinserted⟩ := execAt_empty_or_inserts (hempty hstarted hnone') h
        · exact hkept
        · obtain ⟨hresult', _⟩ := Sequencer.take_of_inserted (rec := rec) hrun hnone'
          rw [hinserted, hresult'] at hnone
          cases hnone
    · rw [hresult] at hnone; cases hnone
  · obtain ⟨hresult, hkept⟩ | ⟨_, _, _, _, _, hset⟩ := htake
    · exact hkept.trans (hstop hrun (hresult ▸ hsome))
    · exact hset

/-- The idle host's request enters READ_ONE with no result and a SESSION_RESET pending, or stays out of it. -/
theorem State.ReadOneInv.of_hostCall (hidle : s.seq.loc = .idle) (h : hostCall hb s = .next t) : t.ReadOneInv := by
  obtain ⟨_, henters⟩ := hostCall_next hidle h
  refine ⟨fun hsetup _ => ?_, fun ⟨hrun, hstarted⟩ _ => ?_, fun hrun hsome => ?_⟩
  · obtain ⟨_, _, hkind, _⟩ := henters (HostLoc.inReadOne_of_settingUp hsetup)
    exact hkind
  · obtain ⟨hsetup, hpending, _⟩ := henters hrun
    exact absurd hpending (by simp [hstarted hsetup])
  · obtain ⟨_, _, _, hnone⟩ := henters hrun
    exact absurd hnone hsome

/-- An action of a running mode leaves the session and the result alone and loses no stop request. -/
theorem State.ReadOneInv.of_modeStep (hinv : s.ReadOneInv) (hvalid : s.cmdValid = false) (h : s.ModeStep t)
    (hblock : s.SameBlock t) : t.ReadOneInv := by
  obtain ⟨_, hempty, hstop⟩ := hinv
  obtain ⟨_, _, hcard, _⟩ := hblock
  refine ⟨fun hsetup => absurd hsetup (by simp [h.settingUp_eq]), fun ⟨hrun, _⟩ hnone => ?_, fun hrun hsome => ?_⟩
  · exact hcard.symm.trans
      (hempty ⟨h.inReadOne_of_inReadOne hrun, fun _ => hvalid⟩ (h.result_eq.symm.trans hnone))
  · exact h.stop_of_stop (hstop (h.inReadOne_of_inReadOne hrun) (h.result_eq ▸ hsome))

theorem State.restartsBlock_of_running (hrun : s.seq.loc ≠ .idle) : s.restartsBlock = false := by
  simp [State.restartsBlock, hrun]

theorem stepAt_readOneInv (hinv : s.ReadOneInv) (h : stepAt hb s = .next t) : t.ReadOneInv := by
  obtain ⟨u, hvalid, hu, rfl⟩ | ⟨hvalid, hhost⟩ := stepAt_cases h
  · exact hinv.completeCommand hvalid hu
  · by_cases hidle : s.seq.loc = .idle
    · exact .of_hostCall hidle ((hostStep_of_idle hidle).symm.trans hhost)
    · have hblock := hostStep_sameBlock hvalid (State.restartsBlock_of_running hidle) hhost
      exact hinv.of_modeStep hvalid (hostStep_modeStep hidle hhost) hblock

end Insertion

/-- Settles O57: a command, a request of the idle host and an action of a running mode each keep the invariant. -/
theorem readOneInvKeptByEveryStep : Obligations.ReadOneInvKeptByEveryStep := by
  unfold Obligations.ReadOneInvKeptByEveryStep
  exact fun _ _ hinv h => stepAt_readOneInv hinv h

/-- Settles O58: no card is present, so the marker inserts the record (O18), and the watcher takes the insertion. -/
theorem firstValidCardWins : Obligations.FirstValidCardWins := by
  unfold Obligations.FirstValidCardWins
  rintro s ⟨_, hempty, _⟩ hstarted hnone hvalid hmarker hfull hrecord
  have habsent : s.csCardP = false := hempty hstarted hnone
  have hexec := markerInsertsNewCard _ s hmarker hfull hrecord fun hpresent => absurd hpresent (by simp [habsent])
  obtain ⟨hrun, _⟩ := hstarted
  obtain ⟨hresult, hstop⟩ := Sequencer.take_of_inserted (rec := recordOf s.faBuf) hrun hnone
  exact ⟨_, stepAt_of_execAt hvalid ((execAt_config _ s).trans hexec), rfl, hresult, hstop, s.seq.take_loc _⟩

/-- Settles O59: the command leaves the host as it was, and the host then takes the event on the port. -/
theorem eventsAreForwarded : Obligations.EventsAreForwarded := by
  unfold Obligations.EventsAreForwarded
  intro s t hvalid h
  obtain rfl := Host.Outcome.next.inj ((step_of_valid s hvalid).symm.trans h)
  obtain ⟨_, _, _, hseq⟩ := execNext_sameHost (decode s.cmdWord) s
  simp only [State.completeCommand_seq, State.completeCommand_evPort, hseq]
  refine ⟨rfl, s.seq.take_loc _, fun hnone => ?_, fun b hgarbage => ?_, fun e he hcard => ?_, fun hquiet => ?_⟩
  · rw [hnone]; rfl
  · rw [hgarbage]; exact s.seq.take_garbage b
  · rw [he]; exact s.seq.take_cardEvent hcard
  · obtain hkept | ⟨rec, hinserted, hrun, hnone, _⟩ := s.seq.take_cases (execNext (decode s.cmdWord) s).evPort
    · exact hkept
    · simp [hinserted, hrun, hnone] at hquiet

end Sys2Proof.Machine
end

section
/-! PROOFS. What a hook may do, and how the two modes are entered and left: O53, O54, O55 and O56. -/

namespace Sys2Proof.Machine

/-! ## The hook -/

theorem decode_eq_sessionReset_iff (w : CmdWord) :
    (∃ ignored, decode w = .sessionReset ignored) ↔ kindField w = 2 := by
  refine ⟨fun ⟨ignored, h⟩ => ?_, fun h => ⟨_, decode_of_kindField_two h⟩⟩
  obtain ⟨b, ⟨_, hdecode⟩ | ⟨_, hdecode⟩ | ⟨rfl, _⟩ | ⟨_, hdecode⟩⟩ := decode_cases w
  · rw [hdecode] at h
    obtain ⟨_, _, hbyte⟩ | ⟨_, _, hbyte⟩ | ⟨_, _, _, hbyte⟩ | ⟨_, _, _, _, hbyte⟩ := decodeByte_cases b <;>
      cases hbyte.symm.trans h
  · cases hdecode.symm.trans h
  · exact kindField_commandWord 2 b
  · cases hdecode.symm.trans h

/-- Settles O53: the actions by definition, and the words that decode to SESSION_RESET are those of kind 10. -/
theorem hookPowers : Obligations.HookPowers := by
  unfold Obligations.HookPowers
  intro s m rest hvalid
  rw [step_of_not_valid s hvalid]
  refine ⟨hostStep_of_acts, hostStep_of_acts, fun w hloc => ⟨fun hreset => ?_, fun hother => ?_⟩⟩
  · exact (hostStep_of_acts hloc).trans (hostActs_of_issue ((decode_eq_sessionReset_iff w).mp hreset))
  · have hkind : kindField w ≠ 2 := mt (decode_eq_sessionReset_iff w).mpr (not_exists.mpr hother)
    exact (hostStep_of_acts hloc).trans (hostActs_of_issue_refused hkind)

/-! ## Entering a mode -/

section Entry

variable {s : State} {rest : List HostCall}

/-- RUN_EVENTS clears `HL_STOP` and goes to its top (44_poll_loop.md R186). -/
theorem step_of_runEvents (hvalid : s.cmdValid = false) (hidle : s.seq.loc = .idle)
    (hcalls : s.seq.calls = .runEvents :: rest) :
    step s = .next { s with seq := { s.seq with calls := rest, stop := false, loc := .top .events } } := by
  refine (stepAt_of_idle Config.hbInterval hvalid hidle).trans ?_
  unfold hostCall; rw [hcalls]

/-- The host with READ_ONE's flag and result cleared, at the place where it sets the deadline (44_poll_loop.md R187). -/
def Sequencer.enterReadOne (timeout : Option Time) (rest : List HostCall) (q : Sequencer) : Sequencer :=
  { q with calls := rest, stop := false, result := none, loc := .deadline timeout }

theorem step_of_readOne {timeout : Option Time} (hvalid : s.cmdValid = false) (hidle : s.seq.loc = .idle)
    (hcalls : s.seq.calls = .readOne timeout :: rest) :
    step s = .next (State.present (commandWord 2 0) s.cmdNow { s with seq := s.seq.enterReadOne timeout rest }) := by
  refine (stepAt_of_idle Config.hbInterval hvalid hidle).trans ?_
  unfold hostCall; rw [hcalls]; rfl

/-- A pending SESSION_RESET empties the session, and the host has no event to take (43_session.md R170). -/
theorem step_of_sessionReset (hvalid : s.cmdValid = true) (hkind : kindField s.cmdWord = 2) :
    step s = .next { s with csCardP := false, csLastP := false, evPort := none, cmdValid := false } := by
  rw [step_of_valid s hvalid, decode_of_kindField_two hkind]; rfl

/-- READ_ONE's deadline is the reading plus the timeout, or none (44_poll_loop.md R187). -/
theorem hostDeadline_deadline (timeout : Option Time) (s : State) :
    (hostDeadline timeout s).seq.deadline = timeout.map (fun d => (hostDeadline timeout s).seq.clock + d) := by
  cases timeout with
  | none => rfl
  | some d => exact congrArg (fun now => some (now + d)) s.seq.readClock_clock.symm

theorem hostDeadline_loc (timeout : Option Time) (s : State) : (hostDeadline timeout s).seq.loc = .top .readOne := by
  cases timeout <;> rfl

theorem hostDeadline_csCardP (timeout : Option Time) (s : State) : (hostDeadline timeout s).csCardP = s.csCardP := by
  cases timeout <;> rfl

theorem hostDeadline_stop (timeout : Option Time) (s : State) : (hostDeadline timeout s).seq.stop = s.seq.stop := by
  cases timeout with
  | none => rfl
  | some d => exact s.seq.readClock_stop

end Entry

/-- Settles O55: the request, the SESSION_RESET it presents, and the deadline, one step each. -/
theorem readOneEntry : Obligations.ReadOneEntry := by
  unfold Obligations.ReadOneEntry
  intro s timeout rest hvalid hidle hcalls
  exact ⟨_, _, _, step_of_readOne hvalid hidle hcalls, rfl, rfl, rfl, rfl,
    step_of_sessionReset rfl (kindField_commandWord 2 0), rfl, rfl, rfl, rfl,
    (step_of_not_valid _ rfl).trans (hostStep_of_deadline rfl), hostDeadline_loc _ _, hostDeadline_deadline _ _,
    hostDeadline_csCardP _ _, hostDeadline_stop _ _, (hostDeadline_modeStep rfl).result_eq⟩

/-! ## Leaving a mode -/

theorem step_of_top {s : State} {m : HostMode} (hvalid : s.cmdValid = false) (hloc : s.seq.loc = .top m) :
    step s = .next (hostTop m s) := (step_of_not_valid s hvalid).trans (hostStep_of_top hloc)

/-- Settles O54: the entry by the idle host's request, and the two branches of the top. -/
theorem runEventsStopsAtTop : Obligations.RunEventsStopsAtTop := by
  unfold Obligations.RunEventsStopsAtTop
  intro s hvalid
  refine ⟨fun rest hidle hcalls => ?_, fun hloc hstop => ⟨_, step_of_top hvalid hloc, ?_⟩,
    fun hloc hgo => ⟨_, step_of_top hvalid hloc, ?_⟩⟩
  · exact ⟨_, step_of_runEvents hvalid hidle hcalls, rfl, rfl, rfl, rfl, hvalid⟩
  · rw [hostTop, Sequencer.atTop_events_of_stop hstop]
    exact ⟨rfl, congrArg (· ++ _) s.seq.drawStop_returns⟩
  · rw [hostTop, Sequencer.atTop_events_of_go hgo]
    exact ⟨rfl, s.seq.drawStop_returns⟩

/-- A step of READ_ONE that is not its check at the top keeps it running: a command leaves the place alone, and any
other action stays in the mode (44_poll_loop.md R191, R192). -/
theorem stepAt_stays_inReadOne {hb : Time} {s t : State} (hrun : s.seq.loc.inReadOne = true)
    (hoff : s.seq.loc ≠ .top .readOne ∨ s.cmdValid = true) (h : stepAt hb s = .next t) :
    t.seq.loc.inReadOne = true ∧ t.seq.returns = s.seq.returns := by
  obtain ⟨u, _, hu, rfl⟩ | ⟨hvalid, hhost⟩ := stepAt_cases h
  · obtain ⟨_, _, _, hseq⟩ := execAt_sameHost hu
    simp [hseq, hrun]
  · have hnotTop : ∀ m, s.seq.loc ≠ .top m := by
      rintro (_ | _) hloc
      · rw [hloc] at hrun; cases hrun
      · exact hoff.elim (absurd hloc) fun hvalid' => absurd hvalid' (by simp [hvalid])
    have hnotIdle : s.seq.loc ≠ .idle := by rintro hloc; rw [hloc] at hrun; cases hrun
    obtain ⟨hstays, hreturns⟩ := (hostStep_modeStep hnotIdle hhost).stays hnotTop
    exact ⟨hstays.trans hrun, hreturns⟩

/-- With a deadline the check leaves its reading on the clock (44_poll_loop.md R187). -/
theorem Sequencer.checkDeadline_clock {q : Sequencer} {d : Time} (hd : q.deadline = some d) :
    q.checkDeadline.clock = q.readClock.1 := by
  obtain hle | hlt := le_or_gt d q.readClock.1
  · rw [Sequencer.checkDeadline_of_le hd hle]; exact q.readClock_clock
  · rw [Sequencer.checkDeadline_of_lt hd hlt]; exact q.readClock_clock

/-- Settles O56: every other step stays in the mode, and the top branches on the stop and on the deadline. -/
theorem readOneReturnsOnStopOrDeadline : Obligations.ReadOneReturnsOnStopOrDeadline := by
  unfold Obligations.ReadOneReturnsOnStopOrDeadline
  refine ⟨fun s t hrun hoff h => stepAt_stays_inReadOne hrun hoff h, fun s hvalid hloc => ?_⟩
  refine ⟨_, step_of_top hvalid hloc, fun hstop => ?_, fun hgo => ?_⟩
  · rw [hostTop, Sequencer.atTop_readOne_of_stop hstop]
    exact ⟨rfl, congrArg (· ++ _) s.seq.drawStop_returns⟩
  · rw [hostTop, Sequencer.atTop_readOne_of_go hgo]
    refine ⟨fun hnone => ?_, fun d hd => ?_⟩
    · rw [Sequencer.checkDeadline_of_none (s.seq.drawStop_deadline.trans hnone)]
      exact ⟨rfl, s.seq.drawStop_returns⟩
    · have hd' : s.seq.drawStop.deadline = some d := s.seq.drawStop_deadline.trans hd
      have hreturns : s.seq.drawStop.readClock.2.returns = s.seq.returns := by simp
      simp only [Sequencer.checkDeadline_clock hd']
      refine ⟨fun hle => ?_, fun hlt => ?_⟩
      · rw [Sequencer.checkDeadline_of_le hd' hle]
        exact ⟨rfl, congrArg (· ++ _) hreturns⟩
      · rw [Sequencer.checkDeadline_of_lt hd' hlt]
        exact ⟨rfl, hreturns⟩

end Sys2Proof.Machine
end

section
/-! PROOFS. The conditions: the RESERVED command, the fault bit it sets, the effect of each condition a command meets, and
the transport a construction needs: O39, O40, O41 and O43. -/

namespace Sys2Proof.Machine

/-! ## RESERVED -/

theorem decode_of_kindField_three {w : CmdWord} (h : kindField w = 3) : decode w = .reserved (byteField w) := by
  simp [decode, h]

theorem exec_reserved (ignored : Byte) (s : State) :
    exec (.reserved ignored) s = .next { s with fltRsvd := true, evPort := none } := rfl

/-- Settles O39: the kind bits alone select the operation, which sets the bit and clears the port. -/
theorem reservedSetsFaultBit : Obligations.ReservedSetsFaultBit := by
  unfold Obligations.ReservedSetsFaultBit
  exact ⟨fun _ hw => ⟨_, decode_of_kindField_three (kindField_of_and_kindMask hw)⟩, exec_reserved⟩

/-! ## The fault bit steers nothing -/

/-- `s` with its fault bit set to `b` (10_state.md R42). -/
abbrev State.withFault (b : Bool) (s : State) : State := { s with fltRsvd := b }

section FaultBit

variable (b : Bool) (s : State)

theorem appendNibble_withFault (n : Nibble) : (s.withFault b).appendNibble n = (s.appendNibble n).withFault b := by
  symm; unfold State.appendNibble; exact apply_dite (State.withFault b) _ _ _

theorem acceptRecord_withFault (rec : CardRecord) (now : Time) :
    acceptRecord rec now (s.withFault b) = (acceptRecord rec now s).withFault b := by
  symm; unfold acceptRecord; exact apply_ite (State.withFault b) _ _ _

theorem sessionFragment_withFault (r : Option CardRecord) (now : Time) :
    sessionFragment r now (s.withFault b) = (sessionFragment r now s).withFault b := by
  cases r with
  | none => rfl
  | some rec =>
    simp only [sessionFragment, acceptRecord_withFault]
    symm; exact apply_ite (State.withFault b) _ _ _

theorem flush_withFault (now : Time) : flush now (s.withFault b) = (flush now s).withFault b := by
  obtain hempty | hfilled := eq_or_ne s.faCnt 0
  · rw [flush_of_empty now hempty, flush_of_empty (s := s.withFault b) now hempty]
  · rw [flush_of_filled now hfilled, flush_of_filled (s := s.withFault b) now hfilled]
    exact sessionFragment_withFault b s.clearFragment _ now

theorem heartbeat_withFault (hb now : Time) : heartbeat hb now (s.withFault b) = (heartbeat hb now s).withFault b := by
  symm; unfold heartbeat; exact apply_ite (State.withFault b) _ _ _

/-- No command but RESERVED reads or writes the fault bit (60_exceptions.md R202). -/
theorem execNext_withFault_of_ne_reserved {i : Instr} (h : i.opcode ≠ .reserved) :
    execNext i (s.withFault b) = (execNext i s).withFault b := by
  cases i with
  | feedStart | feedEnd => exact flush_withFault b s.beginCommand s.cmdNow
  | feedHex n c => exact appendNibble_withFault b s.beginCommand n
  | tick ignored => exact heartbeat_withFault b s.beginCommand _ s.cmdNow
  | feedGarbage | sessionReset => rfl
  | reserved ignored => exact absurd rfl h

/-- A command does the same whatever the fault bit, and afterwards the bit is set if it was or the command is RESERVED
(60_exceptions.md R201, R202). -/
theorem execNext_withFault (i : Instr) :
    execNext i (s.withFault b) = (execNext i s).withFault (b || decide (i.opcode = .reserved)) := by
  by_cases h : i.opcode = .reserved
  · cases i with
    | reserved ignored => exact congrArg (State.withFault · s.beginCommand) (Bool.or_true b).symm
    | feedStart | feedEnd | feedHex | feedGarbage | tick | sessionReset => cases h
  · rw [execNext_withFault_of_ne_reserved b s h, decide_eq_false h, Bool.or_false]

/-- The bit after a command, by `execNext_withFault` at the bit before it. -/
theorem execNext_fltRsvd (i : Instr) : (execNext i s).fltRsvd = (s.fltRsvd || decide (i.opcode = .reserved)) :=
  congrArg State.fltRsvd (execNext_withFault s.fltRsvd s i)

end FaultBit

/-- Settles O40: a command by `execNext_withFault`, a host action by its frame. -/
theorem faultBitIsStickyAndHarmless : Obligations.FaultBitIsStickyAndHarmless := by
  unfold Obligations.FaultBitIsStickyAndHarmless
  refine ⟨fun i s t b h => ?_, fun s t h hgoes hset => ?_, State.blockReset_fltRsvd⟩
  · obtain rfl := Host.Outcome.next.inj ((exec_eq_execNext i s).symm.trans h)
    rw [exec_eq_execNext, execNext_withFault b s i]
  · cases hvalid : s.cmdValid with
    | true =>
      obtain rfl := Host.Outcome.next.inj ((step_of_valid s hvalid).symm.trans h)
      rw [State.completeCommand_fltRsvd, execNext_fltRsvd, hset, Bool.true_or]
    | false =>
      obtain ⟨_, _, _, _, _, _, hflt, _⟩ := hostStep_sameBlock hvalid hgoes ((step_of_not_valid s hvalid).symm.trans h)
      rw [← hflt, hset]

/-! ## The condition a command meets -/

/-- What a marker's flush can meet, with the flush's effect (60_exceptions.md R203). -/
theorem flushCondition_cases (now : Time) (s : State) :
    flushCondition s = none ∨
    (flushCondition s = some .malformedFragment ∧ flush now s = s.clearFragment) ∨
    (∃ rec, flushCondition s = some (.checksumMismatch rec) ∧ rec.isValid = false ∧
      flush now s = s.clearFragment.emit (.invalid rec)) := by
  unfold flushCondition
  obtain hempty | hfilled := eq_or_ne s.faCnt 0
  · exact .inl (if_pos hempty)
  rw [if_neg hfilled, flush_of_filled now hfilled]
  cases decodeFragment s.fragment with
  | none => exact .inr (.inl ⟨rfl, rfl⟩)
  | some rec =>
    cases hvalid : rec.isValid with
    | true => exact .inl (if_pos hvalid)
    | false => exact .inr (.inr ⟨rec, if_neg (by simp [hvalid]), hvalid, sessionFragment_of_invalid now hvalid⟩)

/-- The condition of a command, said once, with the state the command leads to (60_exceptions.md R203). -/
theorem conditionOf_cases (i : Instr) (s : State) :
    conditionOf i s = none ∨
    (∃ b, conditionOf i s = some (.resync b) ∧ execNext i s = s.beginCommand.clearFragment.emit (.garbage b)) ∨
    (conditionOf i s = some .malformedFragment ∧ execNext i s = s.beginCommand.clearFragment) ∨
    (∃ rec, conditionOf i s = some (.checksumMismatch rec) ∧ rec.isValid = false ∧
      execNext i s = s.beginCommand.clearFragment.emit (.invalid rec)) ∨
    (∃ ignored, i = .reserved ignored ∧ conditionOf i s = some (.reservedCommand (commandWord 3 ignored))) := by
  cases i with
  | feedStart | feedEnd =>
    exact (flushCondition_cases s.cmdNow s.beginCommand).imp id fun h => .inr (h.imp_right .inl)
  | feedHex | tick | sessionReset => exact .inl rfl
  | feedGarbage b => exact .inr (.inl ⟨b, rfl, rfl⟩)
  | reserved ignored => exact .inr (.inr (.inr (.inr ⟨ignored, rfl, rfl⟩)))

/-- Settles O41, by the condition that is met. -/
theorem conditionsHaveTheirEffects : Obligations.ConditionsHaveTheirEffects := by
  unfold Obligations.ConditionsHaveTheirEffects
  intro i s t h
  obtain rfl := Host.Outcome.next.inj ((exec_eq_execNext i s).symm.trans h)
  obtain hc | ⟨b, hc, ht⟩ | ⟨hc, ht⟩ | ⟨rec, hc, hinvalid, ht⟩ | ⟨ignored, rfl, hc⟩ := conditionOf_cases i s
  · rw [hc]
    exact ⟨nofun, nofun, nofun, nofun, nofun⟩
  · rw [hc, ht]
    exact ⟨by rintro _ ⟨⟩; exact ⟨rfl, rfl, rfl⟩, nofun, nofun, nofun, nofun⟩
  · rw [hc, ht]
    exact ⟨nofun, fun _ => ⟨rfl, rfl, rfl⟩, nofun, nofun, nofun⟩
  · rw [hc, ht]
    exact ⟨nofun, nofun, by rintro _ ⟨⟩; exact ⟨rfl, rfl, hinvalid, rfl, rfl, rfl, rfl, rfl⟩, nofun, nofun⟩
  · rw [hc]
    exact ⟨nofun, nofun, nofun, by rintro _ ⟨⟩; exact ⟨rfl, rfl, decode_commandWord_three ignored⟩, nofun⟩

/-! ## Construction and the transport -/

section Construction

variable {hb v : Time} {s : State}

theorem State.construct_of_available (havailable : s.seq.transport = .available) :
    s.construct hb v = if v = hb then .next s.blockReset else .refused .intervalChanged := by
  unfold State.construct; rw [havailable]

theorem State.construct_of_not_available (hnot : s.seq.transport ≠ .available) :
    s.construct hb v = .fault .transportUnavailable := by
  unfold State.construct
  cases htransport : s.seq.transport with
  | available => exact absurd htransport hnot
  | unavailable | closed => rfl

variable {rest : List HostCall} (hvalid : s.cmdValid = false) (hidle : s.seq.loc = .idle)
include hvalid hidle

theorem stepAt_of_construct (hcalls : s.seq.calls = .construct v :: rest) :
    stepAt hb s = State.construct hb v { s with seq := { s.seq with calls := rest } } := by
  rw [stepAt_of_idle hb hvalid hidle]; unfold hostCall; rw [hcalls]

theorem stepAt_of_construct_available (hcalls : s.seq.calls = .construct v :: rest)
    (havailable : s.seq.transport = .available) :
    stepAt hb s =
      if v = hb then .next (State.blockReset { s with seq := { s.seq with calls := rest } })
      else .refused .intervalChanged := by
  rw [stepAt_of_construct hvalid hidle hcalls, State.construct_of_available]
  exact havailable

/-- With a usable transport and the run's interval presented the block is reset (70_reset_and_hazards.md R231). -/
theorem stepAt_of_construct_at_interval (hcalls : s.seq.calls = .construct hb :: rest)
    (havailable : s.seq.transport = .available) :
    stepAt hb s = .next (State.blockReset { s with seq := { s.seq with calls := rest } }) :=
  (stepAt_of_construct_available hvalid hidle hcalls havailable).trans (if_pos rfl)

theorem stepAt_of_openTransport {succeeds : Bool} (hcalls : s.seq.calls = .openTransport succeeds :: rest) :
    stepAt hb s = .next { s with
      seq := { s.seq with calls := rest, transport := if succeeds then .available else .unavailable } } := by
  rw [stepAt_of_idle hb hvalid hidle]; unfold hostCall; rw [hcalls]

theorem stepAt_of_closeTransport (hcalls : s.seq.calls = .closeTransport :: rest) :
    stepAt hb s = .next { s with seq := { s.seq with calls := rest, transport := .closed } } := by
  rw [stepAt_of_idle hb hvalid hidle]; unfold hostCall; rw [hcalls]

end Construction

/-- Settles O43: a construction by its transport and its interval, and the two requests that change the transport. -/
theorem constructionNeedsTransport : Obligations.ConstructionNeedsTransport := by
  unfold Obligations.ConstructionNeedsTransport
  intro s rest hvalid hidle
  refine ⟨fun hb v hcalls => ⟨?_, fun havailable hother => ?_, fun hnot => ?_⟩, fun hcalls havailable => ?_,
    fun _ => stepAt_of_openTransport hvalid hidle, stepAt_of_closeTransport hvalid hidle⟩
  · rintro havailable rfl
    exact ⟨_, stepAt_of_construct_at_interval hvalid hidle hcalls havailable, rfl, rfl, rfl, rfl, rfl, rfl⟩
  · exact (stepAt_of_construct_available hvalid hidle hcalls havailable).trans (if_neg hother)
  · rw [stepAt_of_construct hvalid hidle hcalls]
    exact State.construct_of_not_available hnot
  · exact ⟨_, stepAt_of_construct_at_interval hvalid hidle hcalls havailable, rfl, rfl, rfl, rfl, rfl, rfl⟩

end Sys2Proof.Machine
end

section
/-! PROOFS. O35: along a run whose BYTE and TICK times do not decrease, `CS_LAST_T` stays no later than the time of any
BYTE or TICK still to come. -/

namespace Sys2Proof.Machine

/-! ## The commands that bring a time -/

/-- SESSION_RESET and RESERVED, which read no time, keep `CS_LAST_T` (43_session.md R170, 60_exceptions.md R201). -/
theorem runCommand_csLastT_of_not_timed {hb : Time} {c : Command} {s t : State} (hkind : ¬ kindField c.word < 2)
    (h : runCommand hb c s = .next t) : t.csLastT = s.csLastT := by
  have hkinds : ∀ k : BitVec 2, ¬ k < 2 → k = 2 ∨ k = 3 := by decide
  unfold runCommand at h
  obtain htwo | hthree := hkinds _ hkind
  · rw [decode_of_kindField_two htwo] at h
    obtain rfl := Host.Outcome.next.inj h
    rfl
  · rw [decode_of_kindField_three hthree] at h
    obtain rfl := Host.Outcome.next.inj h
    rfl

/-- The host's duty on a list is the duty of its first command towards the later ones, and the duty on those
(70_reset_and_hazards.md R244). -/
theorem HostDuty.monotone_cons {c : Command} {cs : List Command} :
    HostDuty.monotone (c :: cs) ↔
      (∀ d ∈ cs, kindField c.word < 2 → kindField d.word < 2 → c.now ≤ d.now) ∧ HostDuty.monotone cs := by
  simp only [HostDuty.monotone, List.pairwise_map, List.pairwise_filter, List.pairwise_cons, decide_eq_true_eq]

/-! ## The last valid read and the times to come -/

/-- The last valid read is no later than any BYTE or TICK of `cs`. -/
def State.LastReadBefore (s : State) (cs : List Command) : Prop :=
  ∀ d ∈ cs, kindField d.word < 2 → s.csLastT ≤ d.now

/-- One command: a timed one may write its own time, which the duty puts before the later ones. -/
theorem State.LastReadBefore.runCommand {hb : Time} {c : Command} {cs : List Command} {s t : State}
    (hmono : HostDuty.monotone (c :: cs)) (hbefore : s.LastReadBefore (c :: cs))
    (h : runCommand hb c s = .next t) : t.LastReadBefore cs := by
  obtain ⟨hfirst, _⟩ := HostDuty.monotone_cons.mp hmono
  obtain ⟨_, hlater⟩ := List.forall_mem_cons.mp hbefore
  intro d hd hkind
  by_cases htimed : kindField c.word < 2
  · obtain hkept | hwritten := runCommand_csLastT h
    · exact hkept ▸ hlater d hd hkind
    · exact hwritten ▸ hfirst d hd htimed hkind
  · exact runCommand_csLastT_of_not_timed htimed h ▸ hlater d hd hkind

/-- A run of commands keeps the last valid read before those that come after it. -/
theorem State.LastReadBefore.runCommands {hb : Time} {cs after : List Command} {s t : State}
    (hmono : HostDuty.monotone (cs ++ after)) (hbefore : s.LastReadBefore (cs ++ after))
    (h : runCommands hb cs s = .next t) : t.LastReadBefore after := by
  induction cs generalizing s with
  | nil => obtain rfl := Host.Outcome.next.inj h; exact hbefore
  | cons c cs ih =>
    obtain ⟨u, hu, hrest⟩ := runCommands_cons_next h
    obtain ⟨_, hmono'⟩ := HostDuty.monotone_cons.mp hmono
    exact ih hmono' (hbefore.runCommand hmono hu) hrest

/-- Settles O35: the next command is the one that comes after the run. -/
theorem monotoneTimeNeverSaturates : Obligations.MonotoneTimeNeverSaturates := by
  unfold Obligations.MonotoneTimeNeverSaturates
  intro hb before c s t hmono hkind hbefore h
  exact State.LastReadBefore.runCommands hmono hbefore h c List.mem_cons_self hkind

end Sys2Proof.Machine
end
